-- ==== Sys2Proof/Word.lean ====
section
/-! DEFINITION. The word types of the model, and the plainest arithmetic on them.

A register whose width is a parameter of the spec is held at the largest width the spec admits, in its low bits,
with the bits above zero: XLEN is 32 or 64 (R7), VLEN is at most 65536 (R6). Log 29. -/

namespace Sys2Proof

/-- A byte of memory (R60). -/
abbrev Byte := BitVec 8

/-- An XLEN-bit value, XLEN being 32 or 64 (R7): the low XLEN bits, the bits above being zero. -/
abbrev XWord := BitVec 64

/-- A vector register of VLEN bits, VLEN being at most 65536 (R6): the low VLEN bits, the bits above being zero. -/
abbrev VReg := BitVec 65536

/-- An instruction word: every vector instruction is one 32-bit word (R90). -/
abbrev InsnWord := BitVec 32

/-- A 5-bit register number (R94): `x0` to `x31`, or `v0` to `v31`. -/
abbrev RegNo := BitVec 5

end Sys2Proof
end

