-- ==== Sys2Proof/Syntax.lean ====
section
/-! DEFINITION. The instructions: one constructor for each row of spec/opcode_table.json, in the table's order,
with the operands in the assembler's order (R120). `vm = true` is the unmasked form, `vm = false` the form masked by
`v0` (R95); forms whose `vm` bit is fixed have no such field. -/

namespace Sys2Proof

/-- The instructions in scope (R3), each named by its mnemonic. -/
inductive Instr where
  -- Configuration (40_config)
  /-- `vsetvli` (R137). -/
  | vsetvli (rd : RegNo) (rs1 : RegNo) (zimm : BitVec 11)
  /-- `vsetivli` (R138). -/
  | vsetivli (rd : RegNo) (uimm : BitVec 5) (zimm : BitVec 10)
  /-- `vsetvl` (R139). -/
  | vsetvl (rd : RegNo) (rs1 : RegNo) (rs2 : RegNo)
  -- Widening integer add and subtract (42_widening)
  /-- `vwaddu.vv` (R172). -/
  | vwadduVv (vd : RegNo) (vs2 : RegNo) (vs1 : RegNo) (vm : Bool)
  /-- `vwaddu.vx` (R173). -/
  | vwadduVx (vd : RegNo) (vs2 : RegNo) (rs1 : RegNo) (vm : Bool)
  /-- `vwadd.vv` (R174). -/
  | vwaddVv (vd : RegNo) (vs2 : RegNo) (vs1 : RegNo) (vm : Bool)
  /-- `vwadd.vx` (R175). -/
  | vwaddVx (vd : RegNo) (vs2 : RegNo) (rs1 : RegNo) (vm : Bool)
  /-- `vwsubu.vv` (R176). -/
  | vwsubuVv (vd : RegNo) (vs2 : RegNo) (vs1 : RegNo) (vm : Bool)
  /-- `vwsubu.vx` (R177). -/
  | vwsubuVx (vd : RegNo) (vs2 : RegNo) (rs1 : RegNo) (vm : Bool)
  /-- `vwsub.vv` (R178). -/
  | vwsubVv (vd : RegNo) (vs2 : RegNo) (vs1 : RegNo) (vm : Bool)
  /-- `vwsub.vx` (R179). -/
  | vwsubVx (vd : RegNo) (vs2 : RegNo) (rs1 : RegNo) (vm : Bool)
  /-- `vwaddu.wv` (R180). -/
  | vwadduWv (vd : RegNo) (vs2 : RegNo) (vs1 : RegNo) (vm : Bool)
  /-- `vwaddu.wx` (R181). -/
  | vwadduWx (vd : RegNo) (vs2 : RegNo) (rs1 : RegNo) (vm : Bool)
  /-- `vwadd.wv` (R182). -/
  | vwaddWv (vd : RegNo) (vs2 : RegNo) (vs1 : RegNo) (vm : Bool)
  /-- `vwadd.wx` (R183). -/
  | vwaddWx (vd : RegNo) (vs2 : RegNo) (rs1 : RegNo) (vm : Bool)
  /-- `vwsubu.wv` (R184). -/
  | vwsubuWv (vd : RegNo) (vs2 : RegNo) (vs1 : RegNo) (vm : Bool)
  /-- `vwsubu.wx` (R185). -/
  | vwsubuWx (vd : RegNo) (vs2 : RegNo) (rs1 : RegNo) (vm : Bool)
  /-- `vwsub.wv` (R186). -/
  | vwsubWv (vd : RegNo) (vs2 : RegNo) (vs1 : RegNo) (vm : Bool)
  /-- `vwsub.wx` (R187). -/
  | vwsubWx (vd : RegNo) (vs2 : RegNo) (rs1 : RegNo) (vm : Bool)
  -- Integer extension (43_extension)
  /-- `vzext.vf8` (R202). -/
  | vzextVf8 (vd : RegNo) (vs2 : RegNo) (vm : Bool)
  /-- `vsext.vf8` (R203). -/
  | vsextVf8 (vd : RegNo) (vs2 : RegNo) (vm : Bool)
  /-- `vzext.vf4` (R204). -/
  | vzextVf4 (vd : RegNo) (vs2 : RegNo) (vm : Bool)
  /-- `vsext.vf4` (R205). -/
  | vsextVf4 (vd : RegNo) (vs2 : RegNo) (vm : Bool)
  /-- `vzext.vf2` (R206). -/
  | vzextVf2 (vd : RegNo) (vs2 : RegNo) (vm : Bool)
  /-- `vsext.vf2` (R207). -/
  | vsextVf2 (vd : RegNo) (vs2 : RegNo) (vm : Bool)
  -- Add with carry, subtract with borrow (44_carry)
  /-- `vadc.vvm` (R219). -/
  | vadcVvm (vd : RegNo) (vs2 : RegNo) (vs1 : RegNo)
  /-- `vadc.vxm` (R220). -/
  | vadcVxm (vd : RegNo) (vs2 : RegNo) (rs1 : RegNo)
  /-- `vadc.vim` (R221). -/
  | vadcVim (vd : RegNo) (vs2 : RegNo) (imm : BitVec 5)
  /-- `vmadc.vvm` (R222). -/
  | vmadcVvm (vd : RegNo) (vs2 : RegNo) (vs1 : RegNo)
  /-- `vmadc.vxm` (R223). -/
  | vmadcVxm (vd : RegNo) (vs2 : RegNo) (rs1 : RegNo)
  /-- `vmadc.vim` (R224). -/
  | vmadcVim (vd : RegNo) (vs2 : RegNo) (imm : BitVec 5)
  /-- `vmadc.vv` (R225). -/
  | vmadcVv (vd : RegNo) (vs2 : RegNo) (vs1 : RegNo)
  /-- `vmadc.vx` (R226). -/
  | vmadcVx (vd : RegNo) (vs2 : RegNo) (rs1 : RegNo)
  /-- `vmadc.vi` (R227). -/
  | vmadcVi (vd : RegNo) (vs2 : RegNo) (imm : BitVec 5)
  /-- `vsbc.vvm` (R228). -/
  | vsbcVvm (vd : RegNo) (vs2 : RegNo) (vs1 : RegNo)
  /-- `vsbc.vxm` (R229). -/
  | vsbcVxm (vd : RegNo) (vs2 : RegNo) (rs1 : RegNo)
  /-- `vmsbc.vvm` (R230). -/
  | vmsbcVvm (vd : RegNo) (vs2 : RegNo) (vs1 : RegNo)
  /-- `vmsbc.vxm` (R231). -/
  | vmsbcVxm (vd : RegNo) (vs2 : RegNo) (rs1 : RegNo)
  /-- `vmsbc.vv` (R232). -/
  | vmsbcVv (vd : RegNo) (vs2 : RegNo) (vs1 : RegNo)
  /-- `vmsbc.vx` (R233). -/
  | vmsbcVx (vd : RegNo) (vs2 : RegNo) (rs1 : RegNo)
  -- Mask-register logical (45_mask_logical)
  /-- `vmand.mm` (R246). -/
  | vmandMm (vd : RegNo) (vs2 : RegNo) (vs1 : RegNo)
  -- Loads (46_loads)
  /-- `vle8.v` (R256). -/
  | vle8V (vd : RegNo) (rs1 : RegNo) (vm : Bool)
  /-- `vle16.v` (R257). -/
  | vle16V (vd : RegNo) (rs1 : RegNo) (vm : Bool)
  /-- `vle32.v` (R258). -/
  | vle32V (vd : RegNo) (rs1 : RegNo) (vm : Bool)
  /-- `vle64.v` (R259). -/
  | vle64V (vd : RegNo) (rs1 : RegNo) (vm : Bool)
  /-- `vlse8.v` (R260). -/
  | vlse8V (vd : RegNo) (rs1 : RegNo) (rs2 : RegNo) (vm : Bool)
  /-- `vlse16.v` (R261). -/
  | vlse16V (vd : RegNo) (rs1 : RegNo) (rs2 : RegNo) (vm : Bool)
  /-- `vlse32.v` (R262). -/
  | vlse32V (vd : RegNo) (rs1 : RegNo) (rs2 : RegNo) (vm : Bool)
  /-- `vlse64.v` (R263). -/
  | vlse64V (vd : RegNo) (rs1 : RegNo) (rs2 : RegNo) (vm : Bool)
  /-- `vluxei8.v` (R264). -/
  | vluxei8V (vd : RegNo) (rs1 : RegNo) (vs2 : RegNo) (vm : Bool)
  /-- `vluxei16.v` (R265). -/
  | vluxei16V (vd : RegNo) (rs1 : RegNo) (vs2 : RegNo) (vm : Bool)
  /-- `vluxei32.v` (R266). -/
  | vluxei32V (vd : RegNo) (rs1 : RegNo) (vs2 : RegNo) (vm : Bool)
  /-- `vluxei64.v` (R267). -/
  | vluxei64V (vd : RegNo) (rs1 : RegNo) (vs2 : RegNo) (vm : Bool)
  /-- `vloxei8.v` (R268). -/
  | vloxei8V (vd : RegNo) (rs1 : RegNo) (vs2 : RegNo) (vm : Bool)
  /-- `vloxei16.v` (R269). -/
  | vloxei16V (vd : RegNo) (rs1 : RegNo) (vs2 : RegNo) (vm : Bool)
  /-- `vloxei32.v` (R270). -/
  | vloxei32V (vd : RegNo) (rs1 : RegNo) (vs2 : RegNo) (vm : Bool)
  /-- `vloxei64.v` (R271). -/
  | vloxei64V (vd : RegNo) (rs1 : RegNo) (vs2 : RegNo) (vm : Bool)
  /-- `vle8ff.v` (R285). -/
  | vle8ffV (vd : RegNo) (rs1 : RegNo) (vm : Bool)
  /-- `vle16ff.v` (R286). -/
  | vle16ffV (vd : RegNo) (rs1 : RegNo) (vm : Bool)
  /-- `vle32ff.v` (R287). -/
  | vle32ffV (vd : RegNo) (rs1 : RegNo) (vm : Bool)
  /-- `vle64ff.v` (R288). -/
  | vle64ffV (vd : RegNo) (rs1 : RegNo) (vm : Bool)
  /-- `vlm.v` (R289). -/
  | vlmV (vd : RegNo) (rs1 : RegNo)
  /-- `vl1re8.v` (R291). -/
  | vl1re8V (vd : RegNo) (rs1 : RegNo)
  /-- `vl1re16.v` (R292). -/
  | vl1re16V (vd : RegNo) (rs1 : RegNo)
  /-- `vl1re32.v` (R293). -/
  | vl1re32V (vd : RegNo) (rs1 : RegNo)
  /-- `vl1re64.v` (R294). -/
  | vl1re64V (vd : RegNo) (rs1 : RegNo)
  /-- `vl2re8.v` (R295). -/
  | vl2re8V (vd : RegNo) (rs1 : RegNo)
  /-- `vl2re16.v` (R296). -/
  | vl2re16V (vd : RegNo) (rs1 : RegNo)
  /-- `vl2re32.v` (R297). -/
  | vl2re32V (vd : RegNo) (rs1 : RegNo)
  /-- `vl2re64.v` (R298). -/
  | vl2re64V (vd : RegNo) (rs1 : RegNo)
  /-- `vl4re8.v` (R299). -/
  | vl4re8V (vd : RegNo) (rs1 : RegNo)
  /-- `vl4re16.v` (R300). -/
  | vl4re16V (vd : RegNo) (rs1 : RegNo)
  /-- `vl4re32.v` (R301). -/
  | vl4re32V (vd : RegNo) (rs1 : RegNo)
  /-- `vl4re64.v` (R302). -/
  | vl4re64V (vd : RegNo) (rs1 : RegNo)
  /-- `vl8re8.v` (R303). -/
  | vl8re8V (vd : RegNo) (rs1 : RegNo)
  /-- `vl8re16.v` (R304). -/
  | vl8re16V (vd : RegNo) (rs1 : RegNo)
  /-- `vl8re32.v` (R305). -/
  | vl8re32V (vd : RegNo) (rs1 : RegNo)
  /-- `vl8re64.v` (R306). -/
  | vl8re64V (vd : RegNo) (rs1 : RegNo)
  -- Stores (47_stores)
  /-- `vse8.v` (R314). -/
  | vse8V (vs3 : RegNo) (rs1 : RegNo) (vm : Bool)
  /-- `vse16.v` (R315). -/
  | vse16V (vs3 : RegNo) (rs1 : RegNo) (vm : Bool)
  /-- `vse32.v` (R316). -/
  | vse32V (vs3 : RegNo) (rs1 : RegNo) (vm : Bool)
  /-- `vse64.v` (R317). -/
  | vse64V (vs3 : RegNo) (rs1 : RegNo) (vm : Bool)
  /-- `vsse8.v` (R318). -/
  | vsse8V (vs3 : RegNo) (rs1 : RegNo) (rs2 : RegNo) (vm : Bool)
  /-- `vsse16.v` (R319). -/
  | vsse16V (vs3 : RegNo) (rs1 : RegNo) (rs2 : RegNo) (vm : Bool)
  /-- `vsse32.v` (R320). -/
  | vsse32V (vs3 : RegNo) (rs1 : RegNo) (rs2 : RegNo) (vm : Bool)
  /-- `vsse64.v` (R321). -/
  | vsse64V (vs3 : RegNo) (rs1 : RegNo) (rs2 : RegNo) (vm : Bool)
  /-- `vsuxei8.v` (R322). -/
  | vsuxei8V (vs3 : RegNo) (rs1 : RegNo) (vs2 : RegNo) (vm : Bool)
  /-- `vsuxei16.v` (R323). -/
  | vsuxei16V (vs3 : RegNo) (rs1 : RegNo) (vs2 : RegNo) (vm : Bool)
  /-- `vsuxei32.v` (R324). -/
  | vsuxei32V (vs3 : RegNo) (rs1 : RegNo) (vs2 : RegNo) (vm : Bool)
  /-- `vsuxei64.v` (R325). -/
  | vsuxei64V (vs3 : RegNo) (rs1 : RegNo) (vs2 : RegNo) (vm : Bool)
  /-- `vsoxei8.v` (R326). -/
  | vsoxei8V (vs3 : RegNo) (rs1 : RegNo) (vs2 : RegNo) (vm : Bool)
  /-- `vsoxei16.v` (R327). -/
  | vsoxei16V (vs3 : RegNo) (rs1 : RegNo) (vs2 : RegNo) (vm : Bool)
  /-- `vsoxei32.v` (R328). -/
  | vsoxei32V (vs3 : RegNo) (rs1 : RegNo) (vs2 : RegNo) (vm : Bool)
  /-- `vsoxei64.v` (R329). -/
  | vsoxei64V (vs3 : RegNo) (rs1 : RegNo) (vs2 : RegNo) (vm : Bool)
  /-- `vsm.v` (R331). -/
  | vsmV (vs3 : RegNo) (rs1 : RegNo)
  /-- `vs1r.v` (R333). -/
  | vs1rV (vs3 : RegNo) (rs1 : RegNo)
  /-- `vs2r.v` (R334). -/
  | vs2rV (vs3 : RegNo) (rs1 : RegNo)
  /-- `vs4r.v` (R335). -/
  | vs4rV (vs3 : RegNo) (rs1 : RegNo)
  /-- `vs8r.v` (R336). -/
  | vs8rV (vs3 : RegNo) (rs1 : RegNo)
  deriving DecidableEq, Repr

end Sys2Proof
end

