-- ==== Sys2Proof/Decode.lean ====
section
/-! DEFINITION. The decoder (R110), total on any word, and the encoder, both from the formats of R92, R96 and R100
and the opcode map of R106 to R109. -/

namespace Sys2Proof

/-- What the decoder answers. -/
inductive Decoded where
  /-- An instruction of the opcode table. -/
  | instr (i : Instr)
  /-- An encoding of an in-scope opcode that is reserved (R115): it raises IllegalInstruction (R118). -/
  | reserved
  /-- A word of a vector opcode that is no instruction of the table (R119): refused. -/
  | notInScope
  /-- A word that is no vector instruction: the base ISA's (R110), refused. -/
  | notVector
  deriving DecidableEq, Repr

/-! ### The fields of a word (R92, R100) -/

/-- bits 6:0, the major opcode. -/
def fOpcode (w : InsnWord) : BitVec 7 := w.extractLsb' 0 7
/-- bits 11:7, `vd`, `vs3` or `rd`. -/
def fRd (w : InsnWord) : RegNo := w.extractLsb' 7 5
/-- bits 14:12, `funct3` or `width`. -/
def fFunct3 (w : InsnWord) : BitVec 3 := w.extractLsb' 12 3
/-- bits 19:15, `vs1`, `rs1`, an immediate or a sub-opcode. -/
def fRs1 (w : InsnWord) : RegNo := w.extractLsb' 15 5
/-- bits 24:20, `vs2`, `rs2`, `lumop` or `sumop`. -/
def fRs2 (w : InsnWord) : RegNo := w.extractLsb' 20 5
/-- bit 25, `vm` (R95). -/
def fVm (w : InsnWord) : Bool := w.getLsbD 25
/-- bits 31:26, `funct6`. -/
def fFunct6 (w : InsnWord) : BitVec 6 := w.extractLsb' 26 6
/-- bits 27:26, `mop` (R102). -/
def fMop (w : InsnWord) : BitVec 2 := w.extractLsb' 26 2
/-- bit 28, `mew` (R104). -/
def fMew (w : InsnWord) : Bool := w.getLsbD 28
/-- bits 31:29, `nf` (R105). -/
def fNf (w : InsnWord) : BitVec 3 := w.extractLsb' 29 3

/-! ### The decoder -/

/-- The configuration formats (R96). -/
def decodeConfig (w : InsnWord) : Decoded :=
  if w.getLsbD 31 = false then .instr (.vsetvli (fRd w) (fRs1 w) (w.extractLsb' 20 11))
  else if w.getLsbD 30 = true then .instr (.vsetivli (fRd w) (fRs1 w) (w.extractLsb' 20 10))
  else if w.extractLsb' 25 5 = 0#5 then .instr (.vsetvl (fRd w) (fRs1 w) (fRs2 w))
  else .reserved

/-- OPIVV: `funct3 = 000` (R107; R115 (b)). -/
def decodeOpIVV (w : InsnWord) : Decoded :=
  match fFunct6 w, fVm w with
  | 0b010000#6, false => .instr (.vadcVvm (fRd w) (fRs2 w) (fRs1 w))
  | 0b010000#6, true => .reserved
  | 0b010001#6, false => .instr (.vmadcVvm (fRd w) (fRs2 w) (fRs1 w))
  | 0b010001#6, true => .instr (.vmadcVv (fRd w) (fRs2 w) (fRs1 w))
  | 0b010010#6, false => .instr (.vsbcVvm (fRd w) (fRs2 w) (fRs1 w))
  | 0b010010#6, true => .reserved
  | 0b010011#6, false => .instr (.vmsbcVvm (fRd w) (fRs2 w) (fRs1 w))
  | 0b010011#6, true => .instr (.vmsbcVv (fRd w) (fRs2 w) (fRs1 w))
  | _, _ => .notInScope

/-- OPIVX: `funct3 = 100` (R107; R115 (b)). -/
def decodeOpIVX (w : InsnWord) : Decoded :=
  match fFunct6 w, fVm w with
  | 0b010000#6, false => .instr (.vadcVxm (fRd w) (fRs2 w) (fRs1 w))
  | 0b010000#6, true => .reserved
  | 0b010001#6, false => .instr (.vmadcVxm (fRd w) (fRs2 w) (fRs1 w))
  | 0b010001#6, true => .instr (.vmadcVx (fRd w) (fRs2 w) (fRs1 w))
  | 0b010010#6, false => .instr (.vsbcVxm (fRd w) (fRs2 w) (fRs1 w))
  | 0b010010#6, true => .reserved
  | 0b010011#6, false => .instr (.vmsbcVxm (fRd w) (fRs2 w) (fRs1 w))
  | 0b010011#6, true => .instr (.vmsbcVx (fRd w) (fRs2 w) (fRs1 w))
  | _, _ => .notInScope

/-- OPIVI: `funct3 = 011` (R107); there is no immediate form of `vsbc` or `vmsbc` (R115 (c)). -/
def decodeOpIVI (w : InsnWord) : Decoded :=
  match fFunct6 w, fVm w with
  | 0b010000#6, false => .instr (.vadcVim (fRd w) (fRs2 w) (fRs1 w))
  | 0b010000#6, true => .reserved
  | 0b010001#6, false => .instr (.vmadcVim (fRd w) (fRs2 w) (fRs1 w))
  | 0b010001#6, true => .instr (.vmadcVi (fRd w) (fRs2 w) (fRs1 w))
  | 0b010010#6, _ => .reserved
  | 0b010011#6, _ => .reserved
  | _, _ => .notInScope

/-- The unary-extension group (R107): bits 19:15 are a sub-opcode; the values outside 00010 to 00111 are reserved
(R115 (e)). -/
def decodeVxunary0 (w : InsnWord) : Decoded :=
  match fRs1 w with
  | 0b00010#5 => .instr (.vzextVf8 (fRd w) (fRs2 w) (fVm w))
  | 0b00011#5 => .instr (.vsextVf8 (fRd w) (fRs2 w) (fVm w))
  | 0b00100#5 => .instr (.vzextVf4 (fRd w) (fRs2 w) (fVm w))
  | 0b00101#5 => .instr (.vsextVf4 (fRd w) (fRs2 w) (fVm w))
  | 0b00110#5 => .instr (.vzextVf2 (fRd w) (fRs2 w) (fVm w))
  | 0b00111#5 => .instr (.vsextVf2 (fRd w) (fRs2 w) (fVm w))
  | _ => .reserved

/-- OPMVV: `funct3 = 010` (R107); `vmand.mm` with `vm = 0` is reserved (R115 (d)). -/
def decodeOpMVV (w : InsnWord) : Decoded :=
  match fFunct6 w with
  | 0b010010#6 => decodeVxunary0 w
  | 0b011001#6 => if fVm w then .instr (.vmandMm (fRd w) (fRs2 w) (fRs1 w)) else .reserved
  | 0b110000#6 => .instr (.vwadduVv (fRd w) (fRs2 w) (fRs1 w) (fVm w))
  | 0b110001#6 => .instr (.vwaddVv (fRd w) (fRs2 w) (fRs1 w) (fVm w))
  | 0b110010#6 => .instr (.vwsubuVv (fRd w) (fRs2 w) (fRs1 w) (fVm w))
  | 0b110011#6 => .instr (.vwsubVv (fRd w) (fRs2 w) (fRs1 w) (fVm w))
  | 0b110100#6 => .instr (.vwadduWv (fRd w) (fRs2 w) (fRs1 w) (fVm w))
  | 0b110101#6 => .instr (.vwaddWv (fRd w) (fRs2 w) (fRs1 w) (fVm w))
  | 0b110110#6 => .instr (.vwsubuWv (fRd w) (fRs2 w) (fRs1 w) (fVm w))
  | 0b110111#6 => .instr (.vwsubWv (fRd w) (fRs2 w) (fRs1 w) (fVm w))
  | _ => .notInScope

/-- OPMVX: `funct3 = 110` (R107); there is no OPMVX form of the unary-extension group. -/
def decodeOpMVX (w : InsnWord) : Decoded :=
  match fFunct6 w with
  | 0b010010#6 => .reserved
  | 0b110000#6 => .instr (.vwadduVx (fRd w) (fRs2 w) (fRs1 w) (fVm w))
  | 0b110001#6 => .instr (.vwaddVx (fRd w) (fRs2 w) (fRs1 w) (fVm w))
  | 0b110010#6 => .instr (.vwsubuVx (fRd w) (fRs2 w) (fRs1 w) (fVm w))
  | 0b110011#6 => .instr (.vwsubVx (fRd w) (fRs2 w) (fRs1 w) (fVm w))
  | 0b110100#6 => .instr (.vwadduWx (fRd w) (fRs2 w) (fRs1 w) (fVm w))
  | 0b110101#6 => .instr (.vwaddWx (fRd w) (fRs2 w) (fRs1 w) (fVm w))
  | 0b110110#6 => .instr (.vwsubuWx (fRd w) (fRs2 w) (fRs1 w) (fVm w))
  | 0b110111#6 => .instr (.vwsubWx (fRd w) (fRs2 w) (fRs1 w) (fVm w))
  | _ => .notInScope

/-- Major opcode OP-V (R93). -/
def decodeOpV (w : InsnWord) : Decoded :=
  match fFunct3 w with
  | 0b000#3 => decodeOpIVV w
  | 0b010#3 => decodeOpMVV w
  | 0b011#3 => decodeOpIVI w
  | 0b100#3 => decodeOpIVX w
  | 0b110#3 => decodeOpMVX w
  | 0b111#3 => decodeConfig w
  | _ => .notInScope

/-- Select by the `width` field (R101); the other four values are scalar floating-point accesses. -/
def byWidth (w : InsnWord) (e8 e16 e32 e64 : Instr) : Decoded :=
  match fFunct3 w with
  | 0b000#3 => .instr e8
  | 0b101#3 => .instr e16
  | 0b110#3 => .instr e32
  | 0b111#3 => .instr e64
  | _ => .notVector

/-- Is the `width` field that of a vector access (R101)? -/
def vectorWidth (w : InsnWord) : Bool :=
  fFunct3 w == 0b000#3 || fFunct3 w == 0b101#3 || fFunct3 w == 0b110#3 || fFunct3 w == 0b111#3

/-- The whole-register loads (R105): `nf` gives the number of registers, `vm` must be 1. -/
def decodeWholeLoad (w : InsnWord) : Decoded :=
  match fNf w, fVm w with
  | 0b000#3, true =>
    byWidth w (.vl1re8V (fRd w) (fRs1 w)) (.vl1re16V (fRd w) (fRs1 w)) (.vl1re32V (fRd w) (fRs1 w)) (.vl1re64V (fRd w) (fRs1 w))
  | 0b001#3, true =>
    byWidth w (.vl2re8V (fRd w) (fRs1 w)) (.vl2re16V (fRd w) (fRs1 w)) (.vl2re32V (fRd w) (fRs1 w)) (.vl2re64V (fRd w) (fRs1 w))
  | 0b011#3, true =>
    byWidth w (.vl4re8V (fRd w) (fRs1 w)) (.vl4re16V (fRd w) (fRs1 w)) (.vl4re32V (fRd w) (fRs1 w)) (.vl4re64V (fRd w) (fRs1 w))
  | 0b111#3, true =>
    byWidth w (.vl8re8V (fRd w) (fRs1 w)) (.vl8re16V (fRd w) (fRs1 w)) (.vl8re32V (fRd w) (fRs1 w)) (.vl8re64V (fRd w) (fRs1 w))
  | _, _ => .reserved

/-- The unit-stride loads by `lumop` (R103, R108). A non-zero `nf` of an ordinary or fault-only-first load is a segment
load, out of scope (R110). -/
def decodeUnitLoad (w : InsnWord) : Decoded :=
  match fRs2 w with
  | 0b00000#5 =>
    if fNf w = 0#3 then
      byWidth w (.vle8V (fRd w) (fRs1 w) (fVm w)) (.vle16V (fRd w) (fRs1 w) (fVm w)) (.vle32V (fRd w) (fRs1 w) (fVm w)) (.vle64V (fRd w) (fRs1 w) (fVm w))
    else .notInScope
  | 0b01000#5 => decodeWholeLoad w
  | 0b01011#5 =>
    if fNf w = 0#3 ∧ fFunct3 w = 0#3 ∧ fVm w = true then .instr (.vlmV (fRd w) (fRs1 w)) else .reserved
  | 0b10000#5 =>
    if fNf w = 0#3 then
      byWidth w (.vle8ffV (fRd w) (fRs1 w) (fVm w)) (.vle16ffV (fRd w) (fRs1 w) (fVm w)) (.vle32ffV (fRd w) (fRs1 w) (fVm w)) (.vle64ffV (fRd w) (fRs1 w) (fVm w))
    else .notInScope
  | _ => .reserved

/-- Major opcode LOAD-FP (R100, R108). -/
def decodeLoad (w : InsnWord) : Decoded :=
  if vectorWidth w = false then .notVector
  else if fMew w then .reserved
  else
    match fMop w with
    | 0b00#2 => decodeUnitLoad w
    | 0b01#2 =>
      if fNf w = 0#3 then
        byWidth w (.vluxei8V (fRd w) (fRs1 w) (fRs2 w) (fVm w)) (.vluxei16V (fRd w) (fRs1 w) (fRs2 w) (fVm w)) (.vluxei32V (fRd w) (fRs1 w) (fRs2 w) (fVm w)) (.vluxei64V (fRd w) (fRs1 w) (fRs2 w) (fVm w))
      else .notInScope
    | 0b10#2 =>
      if fNf w = 0#3 then
        byWidth w (.vlse8V (fRd w) (fRs1 w) (fRs2 w) (fVm w)) (.vlse16V (fRd w) (fRs1 w) (fRs2 w) (fVm w)) (.vlse32V (fRd w) (fRs1 w) (fRs2 w) (fVm w)) (.vlse64V (fRd w) (fRs1 w) (fRs2 w) (fVm w))
      else .notInScope
    | _ =>
      if fNf w = 0#3 then
        byWidth w (.vloxei8V (fRd w) (fRs1 w) (fRs2 w) (fVm w)) (.vloxei16V (fRd w) (fRs1 w) (fRs2 w) (fVm w)) (.vloxei32V (fRd w) (fRs1 w) (fRs2 w) (fVm w)) (.vloxei64V (fRd w) (fRs1 w) (fRs2 w) (fVm w))
      else .notInScope

/-- The whole-register stores (R105): `vm` must be 1 and `width` 000. -/
def decodeWholeStore (w : InsnWord) : Decoded :=
  match fNf w, fVm w, fFunct3 w with
  | 0b000#3, true, 0b000#3 => .instr (.vs1rV (fRd w) (fRs1 w))
  | 0b001#3, true, 0b000#3 => .instr (.vs2rV (fRd w) (fRs1 w))
  | 0b011#3, true, 0b000#3 => .instr (.vs4rV (fRd w) (fRs1 w))
  | 0b111#3, true, 0b000#3 => .instr (.vs8rV (fRd w) (fRs1 w))
  | _, _, _ => .reserved

/-- The unit-stride stores by `sumop` (R103, R109). -/
def decodeUnitStore (w : InsnWord) : Decoded :=
  match fRs2 w with
  | 0b00000#5 =>
    if fNf w = 0#3 then
      byWidth w (.vse8V (fRd w) (fRs1 w) (fVm w)) (.vse16V (fRd w) (fRs1 w) (fVm w)) (.vse32V (fRd w) (fRs1 w) (fVm w)) (.vse64V (fRd w) (fRs1 w) (fVm w))
    else .notInScope
  | 0b01000#5 => decodeWholeStore w
  | 0b01011#5 =>
    if fNf w = 0#3 ∧ fFunct3 w = 0#3 ∧ fVm w = true then .instr (.vsmV (fRd w) (fRs1 w)) else .reserved
  | _ => .reserved

/-- Major opcode STORE-FP (R100, R109). -/
def decodeStore (w : InsnWord) : Decoded :=
  if vectorWidth w = false then .notVector
  else if fMew w then .reserved
  else
    match fMop w with
    | 0b00#2 => decodeUnitStore w
    | 0b01#2 =>
      if fNf w = 0#3 then
        byWidth w (.vsuxei8V (fRd w) (fRs1 w) (fRs2 w) (fVm w)) (.vsuxei16V (fRd w) (fRs1 w) (fRs2 w) (fVm w)) (.vsuxei32V (fRd w) (fRs1 w) (fRs2 w) (fVm w)) (.vsuxei64V (fRd w) (fRs1 w) (fRs2 w) (fVm w))
      else .notInScope
    | 0b10#2 =>
      if fNf w = 0#3 then
        byWidth w (.vsse8V (fRd w) (fRs1 w) (fRs2 w) (fVm w)) (.vsse16V (fRd w) (fRs1 w) (fRs2 w) (fVm w)) (.vsse32V (fRd w) (fRs1 w) (fRs2 w) (fVm w)) (.vsse64V (fRd w) (fRs1 w) (fRs2 w) (fVm w))
      else .notInScope
    | _ =>
      if fNf w = 0#3 then
        byWidth w (.vsoxei8V (fRd w) (fRs1 w) (fRs2 w) (fVm w)) (.vsoxei16V (fRd w) (fRs1 w) (fRs2 w) (fVm w)) (.vsoxei32V (fRd w) (fRs1 w) (fRs2 w) (fVm w)) (.vsoxei64V (fRd w) (fRs1 w) (fRs2 w) (fVm w))
      else .notInScope

/-- The decoding procedure of R110 on a 32-bit word. -/
def decodeWord (w : InsnWord) : Decoded :=
  match fOpcode w with
  | 0b1010111#7 => decodeOpV w
  | 0b0000111#7 => decodeLoad w
  | 0b0100111#7 => decodeStore w
  | _ => .notVector

/-- The word of four bytes in memory order (R62: instruction fetch is little-endian). -/
def wordOfBytes (b0 b1 b2 b3 : Byte) : InsnWord := b3 ++ b2 ++ b1 ++ b0

/-- Byte `k` of a word in memory order (R62). -/
def byteOfWord (w : InsnWord) (k : Nat) : Byte := w.extractLsb' (8 * k) 8

/-- The decoder on bytes in memory order; fewer than four hold no instruction. -/
def decodeBytes : List Byte → Decoded
  | b0 :: b1 :: b2 :: b3 :: _ => decodeWord (wordOfBytes b0 b1 b2 b3)
  | _ => .notVector

/-- The word whose low `nbits` bits are those of `w`, the rest zero. -/
def tableWord (nbits w : Nat) : InsnWord := BitVec.ofNat 32 (w % 2 ^ nbits)

/-- The instruction the decoder reads from a word numbered as spec/opcode_table.json numbers it. -/
def decodeTableWord (nbits w : Nat) : Option Instr :=
  match decodeBytes ((List.range 4).map (byteOfWord (tableWord nbits w))) with
  | .instr i => some i
  | _ => none

/-! ### The encoder -/

/-- The OP-V format (R92). -/
def encOpV (f6 : BitVec 6) (vm : Bool) (vs2 vs1 : RegNo) (f3 : BitVec 3) (vd : RegNo) : InsnWord :=
  f6 ++ BitVec.ofBool vm ++ vs2 ++ vs1 ++ f3 ++ vd ++ 0b1010111#7

/-- The load and store format (R100), with `mew = 0`. -/
def encMem (op : BitVec 7) (nf : BitVec 3) (mop : BitVec 2) (vm : Bool) (b24 rs1 : RegNo) (width : BitVec 3)
    (vd : RegNo) : InsnWord :=
  nf ++ 0#1 ++ mop ++ BitVec.ofBool vm ++ b24 ++ rs1 ++ width ++ vd ++ op

/-- The load format (R100). -/
def encLoad := encMem 0b0000111#7

/-- The store format (R100). -/
def encStore := encMem 0b0100111#7

/-- The `vsetvli` format (R96). -/
def encVsetvli (rd rs1 : RegNo) (zimm : BitVec 11) : InsnWord :=
  0#1 ++ zimm ++ rs1 ++ 0b111#3 ++ rd ++ 0b1010111#7

/-- The `vsetivli` format (R96). -/
def encVsetivli (rd uimm : RegNo) (zimm : BitVec 10) : InsnWord :=
  0b11#2 ++ zimm ++ uimm ++ 0b111#3 ++ rd ++ 0b1010111#7

/-- The `vsetvl` format (R96). -/
def encVsetvl (rd rs1 rs2 : RegNo) : InsnWord :=
  0b1000000#7 ++ rs2 ++ rs1 ++ 0b111#3 ++ rd ++ 0b1010111#7

/-- The word of an instruction (R96, R106 to R109). -/
def encode : Instr → InsnWord
  | .vsetvli rd rs1 zimm => encVsetvli rd rs1 zimm
  | .vsetivli rd uimm zimm => encVsetivli rd uimm zimm
  | .vsetvl rd rs1 rs2 => encVsetvl rd rs1 rs2
  | .vwadduVv vd vs2 vs1 vm => encOpV 0b110000#6 vm vs2 vs1 0b010#3 vd
  | .vwadduVx vd vs2 rs1 vm => encOpV 0b110000#6 vm vs2 rs1 0b110#3 vd
  | .vwaddVv vd vs2 vs1 vm => encOpV 0b110001#6 vm vs2 vs1 0b010#3 vd
  | .vwaddVx vd vs2 rs1 vm => encOpV 0b110001#6 vm vs2 rs1 0b110#3 vd
  | .vwsubuVv vd vs2 vs1 vm => encOpV 0b110010#6 vm vs2 vs1 0b010#3 vd
  | .vwsubuVx vd vs2 rs1 vm => encOpV 0b110010#6 vm vs2 rs1 0b110#3 vd
  | .vwsubVv vd vs2 vs1 vm => encOpV 0b110011#6 vm vs2 vs1 0b010#3 vd
  | .vwsubVx vd vs2 rs1 vm => encOpV 0b110011#6 vm vs2 rs1 0b110#3 vd
  | .vwadduWv vd vs2 vs1 vm => encOpV 0b110100#6 vm vs2 vs1 0b010#3 vd
  | .vwadduWx vd vs2 rs1 vm => encOpV 0b110100#6 vm vs2 rs1 0b110#3 vd
  | .vwaddWv vd vs2 vs1 vm => encOpV 0b110101#6 vm vs2 vs1 0b010#3 vd
  | .vwaddWx vd vs2 rs1 vm => encOpV 0b110101#6 vm vs2 rs1 0b110#3 vd
  | .vwsubuWv vd vs2 vs1 vm => encOpV 0b110110#6 vm vs2 vs1 0b010#3 vd
  | .vwsubuWx vd vs2 rs1 vm => encOpV 0b110110#6 vm vs2 rs1 0b110#3 vd
  | .vwsubWv vd vs2 vs1 vm => encOpV 0b110111#6 vm vs2 vs1 0b010#3 vd
  | .vwsubWx vd vs2 rs1 vm => encOpV 0b110111#6 vm vs2 rs1 0b110#3 vd
  | .vzextVf8 vd vs2 vm => encOpV 0b010010#6 vm vs2 0b00010#5 0b010#3 vd
  | .vsextVf8 vd vs2 vm => encOpV 0b010010#6 vm vs2 0b00011#5 0b010#3 vd
  | .vzextVf4 vd vs2 vm => encOpV 0b010010#6 vm vs2 0b00100#5 0b010#3 vd
  | .vsextVf4 vd vs2 vm => encOpV 0b010010#6 vm vs2 0b00101#5 0b010#3 vd
  | .vzextVf2 vd vs2 vm => encOpV 0b010010#6 vm vs2 0b00110#5 0b010#3 vd
  | .vsextVf2 vd vs2 vm => encOpV 0b010010#6 vm vs2 0b00111#5 0b010#3 vd
  | .vadcVvm vd vs2 vs1 => encOpV 0b010000#6 false vs2 vs1 0b000#3 vd
  | .vadcVxm vd vs2 rs1 => encOpV 0b010000#6 false vs2 rs1 0b100#3 vd
  | .vadcVim vd vs2 imm => encOpV 0b010000#6 false vs2 imm 0b011#3 vd
  | .vmadcVvm vd vs2 vs1 => encOpV 0b010001#6 false vs2 vs1 0b000#3 vd
  | .vmadcVxm vd vs2 rs1 => encOpV 0b010001#6 false vs2 rs1 0b100#3 vd
  | .vmadcVim vd vs2 imm => encOpV 0b010001#6 false vs2 imm 0b011#3 vd
  | .vmadcVv vd vs2 vs1 => encOpV 0b010001#6 true vs2 vs1 0b000#3 vd
  | .vmadcVx vd vs2 rs1 => encOpV 0b010001#6 true vs2 rs1 0b100#3 vd
  | .vmadcVi vd vs2 imm => encOpV 0b010001#6 true vs2 imm 0b011#3 vd
  | .vsbcVvm vd vs2 vs1 => encOpV 0b010010#6 false vs2 vs1 0b000#3 vd
  | .vsbcVxm vd vs2 rs1 => encOpV 0b010010#6 false vs2 rs1 0b100#3 vd
  | .vmsbcVvm vd vs2 vs1 => encOpV 0b010011#6 false vs2 vs1 0b000#3 vd
  | .vmsbcVxm vd vs2 rs1 => encOpV 0b010011#6 false vs2 rs1 0b100#3 vd
  | .vmsbcVv vd vs2 vs1 => encOpV 0b010011#6 true vs2 vs1 0b000#3 vd
  | .vmsbcVx vd vs2 rs1 => encOpV 0b010011#6 true vs2 rs1 0b100#3 vd
  | .vmandMm vd vs2 vs1 => encOpV 0b011001#6 true vs2 vs1 0b010#3 vd
  | .vle8V vd rs1 vm => encLoad 0b000#3 0b00#2 vm 0b00000#5 rs1 0b000#3 vd
  | .vle16V vd rs1 vm => encLoad 0b000#3 0b00#2 vm 0b00000#5 rs1 0b101#3 vd
  | .vle32V vd rs1 vm => encLoad 0b000#3 0b00#2 vm 0b00000#5 rs1 0b110#3 vd
  | .vle64V vd rs1 vm => encLoad 0b000#3 0b00#2 vm 0b00000#5 rs1 0b111#3 vd
  | .vlse8V vd rs1 rs2 vm => encLoad 0b000#3 0b10#2 vm rs2 rs1 0b000#3 vd
  | .vlse16V vd rs1 rs2 vm => encLoad 0b000#3 0b10#2 vm rs2 rs1 0b101#3 vd
  | .vlse32V vd rs1 rs2 vm => encLoad 0b000#3 0b10#2 vm rs2 rs1 0b110#3 vd
  | .vlse64V vd rs1 rs2 vm => encLoad 0b000#3 0b10#2 vm rs2 rs1 0b111#3 vd
  | .vluxei8V vd rs1 vs2 vm => encLoad 0b000#3 0b01#2 vm vs2 rs1 0b000#3 vd
  | .vluxei16V vd rs1 vs2 vm => encLoad 0b000#3 0b01#2 vm vs2 rs1 0b101#3 vd
  | .vluxei32V vd rs1 vs2 vm => encLoad 0b000#3 0b01#2 vm vs2 rs1 0b110#3 vd
  | .vluxei64V vd rs1 vs2 vm => encLoad 0b000#3 0b01#2 vm vs2 rs1 0b111#3 vd
  | .vloxei8V vd rs1 vs2 vm => encLoad 0b000#3 0b11#2 vm vs2 rs1 0b000#3 vd
  | .vloxei16V vd rs1 vs2 vm => encLoad 0b000#3 0b11#2 vm vs2 rs1 0b101#3 vd
  | .vloxei32V vd rs1 vs2 vm => encLoad 0b000#3 0b11#2 vm vs2 rs1 0b110#3 vd
  | .vloxei64V vd rs1 vs2 vm => encLoad 0b000#3 0b11#2 vm vs2 rs1 0b111#3 vd
  | .vle8ffV vd rs1 vm => encLoad 0b000#3 0b00#2 vm 0b10000#5 rs1 0b000#3 vd
  | .vle16ffV vd rs1 vm => encLoad 0b000#3 0b00#2 vm 0b10000#5 rs1 0b101#3 vd
  | .vle32ffV vd rs1 vm => encLoad 0b000#3 0b00#2 vm 0b10000#5 rs1 0b110#3 vd
  | .vle64ffV vd rs1 vm => encLoad 0b000#3 0b00#2 vm 0b10000#5 rs1 0b111#3 vd
  | .vlmV vd rs1 => encLoad 0b000#3 0b00#2 true 0b01011#5 rs1 0b000#3 vd
  | .vl1re8V vd rs1 => encLoad 0b000#3 0b00#2 true 0b01000#5 rs1 0b000#3 vd
  | .vl1re16V vd rs1 => encLoad 0b000#3 0b00#2 true 0b01000#5 rs1 0b101#3 vd
  | .vl1re32V vd rs1 => encLoad 0b000#3 0b00#2 true 0b01000#5 rs1 0b110#3 vd
  | .vl1re64V vd rs1 => encLoad 0b000#3 0b00#2 true 0b01000#5 rs1 0b111#3 vd
  | .vl2re8V vd rs1 => encLoad 0b001#3 0b00#2 true 0b01000#5 rs1 0b000#3 vd
  | .vl2re16V vd rs1 => encLoad 0b001#3 0b00#2 true 0b01000#5 rs1 0b101#3 vd
  | .vl2re32V vd rs1 => encLoad 0b001#3 0b00#2 true 0b01000#5 rs1 0b110#3 vd
  | .vl2re64V vd rs1 => encLoad 0b001#3 0b00#2 true 0b01000#5 rs1 0b111#3 vd
  | .vl4re8V vd rs1 => encLoad 0b011#3 0b00#2 true 0b01000#5 rs1 0b000#3 vd
  | .vl4re16V vd rs1 => encLoad 0b011#3 0b00#2 true 0b01000#5 rs1 0b101#3 vd
  | .vl4re32V vd rs1 => encLoad 0b011#3 0b00#2 true 0b01000#5 rs1 0b110#3 vd
  | .vl4re64V vd rs1 => encLoad 0b011#3 0b00#2 true 0b01000#5 rs1 0b111#3 vd
  | .vl8re8V vd rs1 => encLoad 0b111#3 0b00#2 true 0b01000#5 rs1 0b000#3 vd
  | .vl8re16V vd rs1 => encLoad 0b111#3 0b00#2 true 0b01000#5 rs1 0b101#3 vd
  | .vl8re32V vd rs1 => encLoad 0b111#3 0b00#2 true 0b01000#5 rs1 0b110#3 vd
  | .vl8re64V vd rs1 => encLoad 0b111#3 0b00#2 true 0b01000#5 rs1 0b111#3 vd
  | .vse8V vs3 rs1 vm => encStore 0b000#3 0b00#2 vm 0b00000#5 rs1 0b000#3 vs3
  | .vse16V vs3 rs1 vm => encStore 0b000#3 0b00#2 vm 0b00000#5 rs1 0b101#3 vs3
  | .vse32V vs3 rs1 vm => encStore 0b000#3 0b00#2 vm 0b00000#5 rs1 0b110#3 vs3
  | .vse64V vs3 rs1 vm => encStore 0b000#3 0b00#2 vm 0b00000#5 rs1 0b111#3 vs3
  | .vsse8V vs3 rs1 rs2 vm => encStore 0b000#3 0b10#2 vm rs2 rs1 0b000#3 vs3
  | .vsse16V vs3 rs1 rs2 vm => encStore 0b000#3 0b10#2 vm rs2 rs1 0b101#3 vs3
  | .vsse32V vs3 rs1 rs2 vm => encStore 0b000#3 0b10#2 vm rs2 rs1 0b110#3 vs3
  | .vsse64V vs3 rs1 rs2 vm => encStore 0b000#3 0b10#2 vm rs2 rs1 0b111#3 vs3
  | .vsuxei8V vs3 rs1 vs2 vm => encStore 0b000#3 0b01#2 vm vs2 rs1 0b000#3 vs3
  | .vsuxei16V vs3 rs1 vs2 vm => encStore 0b000#3 0b01#2 vm vs2 rs1 0b101#3 vs3
  | .vsuxei32V vs3 rs1 vs2 vm => encStore 0b000#3 0b01#2 vm vs2 rs1 0b110#3 vs3
  | .vsuxei64V vs3 rs1 vs2 vm => encStore 0b000#3 0b01#2 vm vs2 rs1 0b111#3 vs3
  | .vsoxei8V vs3 rs1 vs2 vm => encStore 0b000#3 0b11#2 vm vs2 rs1 0b000#3 vs3
  | .vsoxei16V vs3 rs1 vs2 vm => encStore 0b000#3 0b11#2 vm vs2 rs1 0b101#3 vs3
  | .vsoxei32V vs3 rs1 vs2 vm => encStore 0b000#3 0b11#2 vm vs2 rs1 0b110#3 vs3
  | .vsoxei64V vs3 rs1 vs2 vm => encStore 0b000#3 0b11#2 vm vs2 rs1 0b111#3 vs3
  | .vsmV vs3 rs1 => encStore 0b000#3 0b00#2 true 0b01011#5 rs1 0b000#3 vs3
  | .vs1rV vs3 rs1 => encStore 0b000#3 0b00#2 true 0b01000#5 rs1 0b000#3 vs3
  | .vs2rV vs3 rs1 => encStore 0b001#3 0b00#2 true 0b01000#5 rs1 0b000#3 vs3
  | .vs4rV vs3 rs1 => encStore 0b011#3 0b00#2 true 0b01000#5 rs1 0b000#3 vs3
  | .vs8rV vs3 rs1 => encStore 0b111#3 0b00#2 true 0b01000#5 rs1 0b000#3 vs3

end Sys2Proof
end

