-- ==== Sys2Proof/Config.lean ====
section
/-! DEFINITION. What an implementation or a platform fixes (R5 to R8), as plain data, and the free values that
nothing fixes, as constants without a body.

The parameters of R8 are the fields of `Params`, which the state carries and no step changes: a statement about
every state is therefore a statement about every implementation the spec admits (log 1). -/

namespace Sys2Proof.Config

/-- XLEN, 32 or 64 (R7, D1). -/
inductive XLen where
  | x32
  | x64
  deriving DecidableEq, Repr

/-- XLEN as a number of bits. -/
def XLen.bits : XLen → Nat
  | .x32 => 32
  | .x64 => 64

/-- `misaligned_policy` (R65, D5). -/
inductive Misaligned where
  | trap
  | perform
  deriving DecidableEq, Repr

/-- `arith_vstart_policy` (R158, D17). -/
inductive ArithVstart where
  | execute
  | trapNonzero
  deriving DecidableEq, Repr

/-- `ff_trim_policy` (R284 (d), D19). -/
inductive FfTrim where
  | never
  | mayTrim
  deriving DecidableEq, Repr

/-- `vl_policy` (R134, D3): the default `min(AVL, VLMAX)`, or the implementation's own choice among the values
constraint (2) of R134 admits. -/
inductive VlPolicy where
  | minimum
  | implementation
  deriving DecidableEq, Repr

/-- How the draws of a step are resolved (`agnostic_policy`, R45, D13; 95_test_vectors L0): `free` leaves every draw
to an opaque constant; `quiet` is the one schedule the spec names for testing, in which an agnostic element keeps
its old value, nothing past a trap is touched and overlapping stores land in element order (log 22). -/
inductive Schedule where
  | free
  | quiet
  deriving DecidableEq, Repr

/-- The answers of `mem_admits` (R69). -/
inductive Admit where
  | ok
  | accessFault
  | pageFault
  deriving DecidableEq, Repr

/-- The kinds of access `mem_admits` is asked about (R69). -/
inductive AccessKind where
  | load
  | store
  | fetch
  deriving DecidableEq, Repr

/-- What the platform answers for one region: one answer per kind of access (R69), and whether the region is
idempotent main memory (R71). -/
structure Attr where
  load : Admit
  store : Admit
  fetch : Admit
  idempotent : Bool
  deriving DecidableEq, Repr

/-- The answer for one kind of access. -/
def Attr.answer (t : Attr) : AccessKind → Admit
  | .load => t.load
  | .store => t.store
  | .fetch => t.fetch

/-- A region of the address map: `size` bytes from `base`. -/
structure Region where
  base : Nat
  size : Nat
  attr : Attr
  deriving DecidableEq, Repr

/-- The parameters of R8. VLEN and ELEN are powers of two (R5, R6) and are given by their exponents. -/
structure Params where
  /-- XLEN (R7). -/
  xlen : XLen
  /-- VLEN = 2^lgVlen (R6). -/
  lgVlen : Nat
  /-- ELEN = 2^lgElen (R5). -/
  lgElen : Nat
  /-- `vtype` settings (vsew, vlmul) supported beyond the required set of R133 (D14). -/
  extraVtypes : List (BitVec 3 × BitVec 3)
  /-- `vl_policy` (R134). -/
  vlPolicy : VlPolicy
  /-- `agnostic_policy`, and the resolver of every other draw (R45). -/
  schedule : Schedule
  /-- `misaligned_policy` (R65). -/
  misaligned : Misaligned
  /-- `mem_admits` (R69): the first region that holds the whole access answers. -/
  regions : List Region
  /-- `mem_admits` (R69): the answer for an access that no region holds whole. -/
  elsewhere : Attr
  /-- `arith_vstart_policy` (R158). -/
  arithVstart : ArithVstart
  /-- `ff_trim_policy` (R284). -/
  ffTrim : FfTrim
  /-- Whether the base has the compressed extension, which lets `pc` be 2-byte aligned (R22, R67). -/
  compressed : Bool
  deriving DecidableEq, Repr

/-- XLEN in bits (R7). -/
def Params.xbits (c : Params) : Nat := c.xlen.bits

/-- VLEN in bits (R6). -/
def Params.vlen (c : Params) : Nat := 2 ^ c.lgVlen

/-- ELEN in bits (R5). -/
def Params.elen (c : Params) : Nat := 2 ^ c.lgElen

/-- `VLENB = VLEN/8` (R9). -/
def Params.vlenb (c : Params) : Nat := c.vlen / 8

/-- ELEN is at least 8, and ELEN <= VLEN <= 65536 (R5, R6). -/
abbrev Params.wf (c : Params) : Prop := 3 ≤ c.lgElen ∧ c.lgElen ≤ c.lgVlen ∧ c.lgVlen ≤ 16

/-- Memory that admits every access and is idempotent (`mem_admits` of 95_test_vectors L0). -/
def openMemory : Attr := { load := .ok, store := .ok, fetch := .ok, idempotent := true }

/-- CFG-A of 95_test_vectors L0: XLEN = 32, VLEN = 128, ELEN = 64, the default parameters of 92_eei_decisions, and
free draws. DESIGN CHOICE for the reset state only (log 1, log 7). -/
def cfgA : Params where
  xlen := .x32
  lgVlen := 7
  lgElen := 6
  extraVtypes := []
  vlPolicy := .minimum
  schedule := .free
  misaligned := .trap
  regions := []
  elsewhere := openMemory
  arithVstart := .execute
  ffTrim := .never
  compressed := false

/-! ### Free values

Each constant below has no body: nothing in Lean can evaluate it, so a claim holds whatever it is. The first
argument, where it is a draw of a step, is the state's counter `draws`, which every step advances (log 21). -/

/-- The implementation's `vl` for an AVL and a VLMAX (R134 (2), (4)); the model brings it into the range R134
admits. Log 19. -/
opaque vlChoice : Nat → Nat → Nat

/-- Whether the agnostic element of that index is overwritten with all ones rather than kept (R45). Log 13. -/
opaque agnosticOnes : Nat → Nat → Bool

/-- The agnostic tail bit of that index of a mask destination (R45, R46). Log 14. -/
opaque maskTailBit : Nat → Nat → Bool

/-- What an active element at or past the trap of a load, or past the new `vl` of a fault-only-first load, holds
(R254, R284 (c)). Log 15. -/
opaque residue : Nat → Nat → Nat

/-- Whether an active element past the trap of a store has been written (R313). Log 16. -/
opaque storePerformed : Nat → Nat → Bool

/-- Which of the elements that write one byte leaves its value (R72); the second argument is the address. Log 17. -/
opaque overlapWinner : Nat → Nat → Nat

/-- How many elements a fault-only-first load processes under `may_trim` (R284 (d)). Log 18. -/
opaque ffLimit : Nat → Nat

/-- What an instruction fetch sees at an address stored to since the last FENCE.I (R76). Log 20. -/
opaque staleByte : Nat → Nat → Byte

end Sys2Proof.Config
end

