-- ==== Sys2Proof/Machine/State.lean ====
section
/-! DEFINITION. The state of the machine, as plain data, the reasons a step can stop, and the state after reset.

Every field is listed in INVENTORY.md with the rule of spec/ that names it. -/

namespace Sys2Proof.Machine

open Sys2Proof.Config

/-- The privilege modes a trap is taken from and to (R356, R363). -/
inductive Priv where
  | user
  | supervisor
  | machine
  deriving DecidableEq, Repr

/-- The values of a unit's status field in `mstatus`, with the coding 0 to 3 of R365. R365 gives it for `VS`; that `FS` and
`XS` have it too is PRESUMED (log 42). -/
inductive VsStatus where
  | off
  | initial
  | clean
  | dirty
  deriving DecidableEq, Repr

/-- The fields of `mstatus` the spec names (R356, R365), but for `SD`, which is computed from three of them
(`MStatus.sd`). `sstatus` shows `sie`, `spie`, `spp`, `vs`, `fs`, `xs` and `SD` of the same storage. -/
structure MStatus where
  /-- Interrupt enable of machine mode. -/
  mie : Bool
  /-- The `mie` before the last trap to machine mode. -/
  mpie : Bool
  /-- The mode before the last trap to machine mode. -/
  mpp : Priv
  /-- Interrupt enable of supervisor mode. -/
  sie : Bool
  /-- The `sie` before the last trap to supervisor mode. -/
  spie : Bool
  /-- Whether the mode before the last trap to supervisor mode was supervisor mode. -/
  spp : Bool
  /-- The vector unit's status (R365). -/
  vs : VsStatus
  /-- The floating-point unit's status, which `SD` summarises too (R365). -/
  fs : VsStatus
  /-- The status of further units, which `SD` summarises too (R365). -/
  xs : VsStatus
  deriving DecidableEq, Repr

/-- The synchronous exceptions (R351), those of the fetch included. -/
inductive Cause where
  | instrAddressMisaligned
  | instrAccessFault
  | illegalInstruction
  | loadAddressMisaligned
  | loadAccessFault
  | storeAddressMisaligned
  | storeAccessFault
  | instrPageFault
  | loadPageFault
  | storePageFault
  deriving DecidableEq, Repr

/-- The triple a raised exception is reported as (R350). -/
structure TrapReport where
  cause : Cause
  tval : XWord
  epc : XWord
  deriving DecidableEq, Repr

/-- The vector register file (R23). -/
abbrev VFile := Vector VReg 32

/-- Memory: the bytes that differ from what an unlisted address reads as, by rising address (R60). -/
abbrev Mem := List Host.Cell

/-- The state of the hart, of its memory and of its parameters. -/
structure State where
  /-- The parameters of the implementation and the platform (R8); no step changes them. -/
  cfg : Params
  /-- `x0` to `x31` (R20). -/
  x : Vector XWord 32
  /-- The program counter (R22). -/
  pc : XWord
  /-- `v0` to `v31` (R23). -/
  v : VFile
  /-- `vstart` (R26). -/
  vstart : XWord
  /-- `vxsat`, its one bit (R50). -/
  vxsat : BitVec 1
  /-- `vxrm`, its two bits (R51). -/
  vxrm : BitVec 2
  /-- `vl` (R30). -/
  vl : XWord
  /-- `vtype` (R31). -/
  vtype : XWord
  /-- The privilege mode (R356, R363). -/
  priv : Priv
  /-- `mstatus` (R356, R365). -/
  mstatus : MStatus
  /-- `misa`, whose bit 21 is `V` (R365); 0 where it is not implemented (log 42). -/
  misa : XWord
  /-- `mepc` (R356). -/
  mepc : XWord
  /-- `mcause` (R356). -/
  mcause : XWord
  /-- `mtval` (R356). -/
  mtval : XWord
  /-- `mtvec` (R356). -/
  mtvec : XWord
  /-- `medeleg` (R362). -/
  medeleg : XWord
  /-- `sepc` (R356). -/
  sepc : XWord
  /-- `scause` (R356). -/
  scause : XWord
  /-- `stval` (R356). -/
  stval : XWord
  /-- `stvec` (R356). -/
  stvec : XWord
  /-- Memory (R60). -/
  mem : Mem
  /-- The addresses of the bytes stored to since the last FENCE.I, strictly rising (R76). -/
  unsynced : List Nat
  /-- The exception the last step raised, if it raised one (R350). -/
  report : Option TrapReport
  /-- The model's counter of steps, which keeps the free values of different steps apart (log 21). -/
  draws : Nat
  deriving DecidableEq, Repr

/-- Why the machine stops. -/
inductive Fault where
  /-- Raised by `step` when the parameters are no machine the spec describes (R5, R6: ELEN at least 8, ELEN <= VLEN
  <= 65536). Safe: no hardware of the spec is in such a state. -/
  | parametersOutOfRange
  deriving DecidableEq, Repr

/-- Why an instruction has no meaning here. -/
inductive Refusal where
  /-- Raised by an arm of `exec` for an instruction whose meaning is not written. No arm does. Safe. -/
  | notModelled (mnemonic : String)
  /-- Raised by `step` for a word of a vector opcode that is no instruction of the opcode table (R119): the hardware
  may execute it. Safe. -/
  | notInScope (w : InsnWord)
  /-- Raised by `step` for a word that is no vector instruction, the base ISA's (R110, R4). Safe. -/
  | notVector (w : InsnWord)
  /-- Raised by a load, a store or a fetch whose access at that address falls in a region that is not idempotent main
  memory, to which the spec gives no meaning (R71, D6, U17). Safe. -/
  | notMainMemory (address : XWord)
  deriving DecidableEq, Repr

/-- The three outcomes of a step of this machine. -/
abbrev Result := Host.Outcome State Fault Refusal

/-- `mstatus` after reset: interrupts disabled (R380), the vector unit on but unused (log 3), the rest zero (log 5). -/
def MStatus.reset : MStatus where
  mie := false
  mpie := false
  mpp := .user
  sie := false
  spie := false
  spp := false
  vs := .initial
  fs := .off
  xs := .off

/-- The state after reset (R56, R380): `vtype` has `vill = 1` and all other bits 0, `vl` is 0, machine mode with
interrupts disabled. Every value the spec leaves unspecified is named in logs 1 to 7 and 43. -/
def State.reset : State where
  cfg := cfgA
  x := Vector.replicate 32 0
  pc := 0x1000
  v := Vector.replicate 32 0
  vstart := 0
  vxsat := 0
  vxrm := 0
  vl := 0
  vtype := 0x80000000
  priv := .machine
  mstatus := MStatus.reset
  misa := BitVec.twoPow 64 21
  mepc := 0
  mcause := 0
  mtval := 0
  mtvec := 0
  medeleg := 0
  sepc := 0
  scause := 0
  stval := 0
  stvec := 0
  mem := []
  unsynced := []
  report := none
  draws := 0

end Sys2Proof.Machine
end

