-- ==== Sys2Proof/Machine/Operands.lean ====
section
/-! DEFINITION. How operands are read: scalar registers, the fields of `vtype`, elements, masks, immediates, register
groups and their restrictions (R12, R13, R31 to R48, R150 to R152). -/

namespace Sys2Proof.Machine

open Sys2Proof.Config

/-! ### Scalars (R12, R20) -/

/-- The low XLEN bits of a value, zero above: arithmetic on `x` registers and addresses is modulo 2^XLEN (R78). -/
def truncX (c : Params) (a : XWord) : XWord :=
  match c.xlen with
  | .x64 => a
  | .x32 => (a.setWidth 32).setWidth 64

/-- A 5-bit register number as an index (R94). -/
def regIdx (r : RegNo) : Fin 32 := r.toFin

/-- `x[r]`; `x0` reads as zero (R20). -/
def State.readX (s : State) (r : RegNo) : XWord :=
  if r = 0#5 then 0 else truncX s.cfg (s.x.get (regIdx r))

/-- `scalar_op` (R152): the low SEW bits of `x[r]`, or `x[r]` sign-extended when XLEN < SEW. -/
def scalarOp (s : State) (r : RegNo) (sew : Nat) : BitVec sew :=
  match s.cfg.xlen with
  | .x64 => (s.readX r).signExtend sew
  | .x32 => ((s.readX r).setWidth 32).signExtend sew

/-- `imm_op` (R151): the 5-bit immediate sign-extended to SEW bits. -/
def immOp (imm : BitVec 5) (sew : Nat) : BitVec sew := imm.signExtend sew

/-! ### `vtype` (R31 to R37) -/

/-- `SEW = 8 << vsew` (R33). -/
def sewOf (vsew : BitVec 3) : Nat := 8 * 2 ^ vsew.toNat

/-- LMUL in eighths: the table of R34; the reserved value 100 gives 0. -/
def lmul8Of (vlmul : BitVec 3) : Nat :=
  match vlmul with
  | 0b000#3 => 8
  | 0b001#3 => 16
  | 0b010#3 => 32
  | 0b011#3 => 64
  | 0b100#3 => 0
  | 0b101#3 => 1
  | 0b110#3 => 2
  | 0b111#3 => 4

/-- `VLMAX = LMUL*VLEN/SEW` (R35), LMUL in eighths. -/
def vlmaxOf (c : Params) (vsew vlmul : BitVec 3) : Nat := lmul8Of vlmul * c.vlen / (8 * sewOf vsew)

/-- The `vlmul` field, bits 2:0 (R31). -/
def fieldVlmul (t : XWord) : BitVec 3 := t.extractLsb' 0 3
/-- The `vsew` field, bits 5:3 (R31). -/
def fieldVsew (t : XWord) : BitVec 3 := t.extractLsb' 3 3
/-- The `vta` field, bit 6 (R31). -/
def fieldVta (t : XWord) : Bool := t.getLsbD 6
/-- The `vma` field, bit 7 (R31). -/
def fieldVma (t : XWord) : Bool := t.getLsbD 7
/-- The `vill` field, bit XLEN-1 (R31). -/
def fieldVill (c : Params) (t : XWord) : Bool := t.getLsbD (c.xbits - 1)

/-- `vtype.vill` (R32). -/
def State.vill (s : State) : Bool := fieldVill s.cfg s.vtype
/-- `vtype.vta` (R36). -/
def State.vta (s : State) : Bool := fieldVta s.vtype
/-- `vtype.vma` (R36). -/
def State.vma (s : State) : Bool := fieldVma s.vtype
/-- `SEW` (R37). -/
def State.sew (s : State) : Nat := sewOf (fieldVsew s.vtype)
/-- `LMUL` in eighths (R37). -/
def State.lmul8 (s : State) : Nat := lmul8Of (fieldVlmul s.vtype)
/-- `VLMAX` (R37). -/
def State.vlmax (s : State) : Nat := vlmaxOf s.cfg (fieldVsew s.vtype) (fieldVlmul s.vtype)
/-- `vl` as a number (R30). -/
def State.vlN (s : State) : Nat := s.vl.toNat
/-- `vstart` as a number (R26). -/
def State.vstartN (s : State) : Nat := s.vstart.toNat
/-- `vs_enabled`: the vector unit is on (R365). -/
def State.vsEnabled (s : State) : Bool := decide (s.mstatus.vs ≠ .off)

/-- The EMUL, in eighths, of an operand of width `w`: `(w/SEW)*LMUL` (R41, R251); 0 when it is below 1/8. -/
def State.emul8 (s : State) (w : Nat) : Nat := s.lmul8 * w / s.sew

/-! ### Elements and masks (R13, R38, R40) -/

/-- Register number `n`; a group that respects R39 never reaches past `v31`. -/
def vreg (f : VFile) (n : Nat) : VReg := f.get (Fin.ofNat 32 n)

/-- `elem(b, W, i)`: element `i` of width `W` of the group that starts at register `b` (R13, R38). -/
def elemOf (c : Params) (f : VFile) (b W i : Nat) : BitVec W :=
  (vreg f (b + i / (c.vlen / W))).extractLsb' (i % (c.vlen / W) * W) W

/-- `elem` in the current state. -/
def State.elem (s : State) (r : RegNo) (W i : Nat) : BitVec W := elemOf s.cfg s.v r.toNat W i

/-- `mask(n, i) = V[n][i]` (R13, R40). -/
def State.mask (s : State) (r : RegNo) (i : Nat) : Bool := (vreg s.v r.toNat).getLsbD i

/-- `mask_on(i)`: unmasked, or the mask bit of `v0` is set (R42, R95). -/
def State.maskOn (s : State) (vm : Bool) (i : Nat) : Bool := vm || s.mask 0#5 i

/-! ### Register groups (R39, R47, R48) -/

/-- `nregs(EMUL) = max(1, EMUL)` (R14), EMUL in eighths. -/
def nregs (emul8 : Nat) : Nat := max 1 (emul8 / 8)

/-- `group_ok` (R39), EMUL in eighths. -/
def groupOk (c : Params) (b : RegNo) (emul8 eew : Nat) : Bool :=
  decide (1 ≤ emul8 ∧ emul8 ≤ 64 ∧ 8 ≤ eew ∧ eew ≤ c.elen ∧ b.toNat % nregs emul8 = 0)

/-- Do the groups `regs(b1, m1)` and `regs(b2, m2)` share a register (R39)? -/
def groupsMeet (b1 : RegNo) (m1 : Nat) (b2 : RegNo) (m2 : Nat) : Bool :=
  decide (b1.toNat < b2.toNat + nregs m2 ∧ b2.toNat < b1.toNat + nregs m1)

/-- `overlap_ok` (R48): destination base, EEW and EMUL, then source base, EEW and EMUL, the EMULs in eighths. A mask
operand counts as EEW 1, EMUL 1 (8 eighths). -/
def overlapOk (db : RegNo) (dW dM : Nat) (sb : RegNo) (sW sM : Nat) : Bool :=
  if groupsMeet db dM sb sM = false then true
  else if dW = sW then true
  else if dW < sW then decide (db = sb)
  else decide (8 ≤ sM ∧ sb.toNat + nregs sM = db.toNat + nregs dM)

/-- R47: a masked instruction's vector destination group does not contain `v0`. -/
def v0Ok (vd : RegNo) (vm : Bool) : Bool := vm || decide (vd ≠ 0#5)

end Sys2Proof.Machine
end

