-- ==== Sys2Proof/Machine/Flags.lean ====
section
/-! DEFINITION. The arithmetic of the carry family (R216). The vector extension has no condition codes (R53): a carry
or borrow is a mask bit. -/

namespace Sys2Proof.Machine

/-- The carry-in or borrow-in of element `i`: mask bit `i` of `v0` when `vm = 0` (`carryIn = true`), else 0 (R215). -/
def carryBit (s : State) (carryIn : Bool) (i : Nat) : Bool := carryIn && s.mask 0#5 i

/-- `vadc`: `(a + b + c) mod 2^SEW` (R216). -/
def addCarry {W : Nat} (a b : BitVec W) (c : Bool) : BitVec W := BitVec.ofNat W (a.toNat + b.toNat + c.toNat)

/-- `vmadc`: the carry out of bit SEW-1, the sum being formed without wrapping (R216). -/
def carryOut {W : Nat} (a b : BitVec W) (c : Bool) : Bool := decide (2 ^ W ≤ a.toNat + b.toNat + c.toNat)

/-- `vsbc`: `(a - b - c) mod 2^SEW` (R216). -/
def subBorrow {W : Nat} (a b : BitVec W) (c : Bool) : BitVec W := a - b - BitVec.ofNat W c.toNat

/-- `vmsbc`: the borrow, `b + c` being formed without wrapping (R216). -/
def borrowOut {W : Nat} (a b : BitVec W) (c : Bool) : Bool := decide (a.toNat < b.toNat + c.toNat)

end Sys2Proof.Machine
end

