-- ==== Sys2Proof/Machine/Ops.lean ====
section
/-! DEFINITION. The named operations over registers, memory and control state: memory and `mem_admits`, register
writes, completion, taking an exception and returning from one, the vector CSRs, and the fetch. -/

namespace Sys2Proof.Machine

open Sys2Proof.Config

/-! ### Memory (R60, R62)

A memory lists the bytes that differ from `blankByte`, by strictly rising address. -/

/-- What an address that is not listed reads as: DESIGN CHOICE (log 6), the spec gives memory no initial contents. -/
def blankByte : Byte := 0

/-- The byte at an address. -/
def Mem.read : Mem → Nat → Byte
  | [], _ => blankByte
  | (k, b) :: t, a => if k = a then b else Mem.read t a

/-- Put a byte at an address, keeping the addresses rising. -/
def Mem.insert : Mem → Nat → Byte → Mem
  | [], a, b => [(a, b)]
  | (k, c) :: t, a, b =>
    if a < k then (a, b) :: (k, c) :: t
    else if a = k then (a, b) :: t
    else (k, c) :: Mem.insert t a b

/-- Drop the entry of an address. -/
def Mem.erase (m : Mem) (a : Nat) : Mem := m.filter (fun p => p.1 != a)

/-- Write a byte; writing the blank byte removes the entry. -/
def Mem.write (m : Mem) (a : Nat) (b : Byte) : Mem :=
  if b = blankByte then Mem.erase m a else Mem.insert m a b

/-- The canonical form: addresses strictly rising, no entry blank. -/
def Mem.wf : Mem → Bool
  | [] => true
  | [(_, b)] => b != blankByte
  | (k, b) :: (k', b') :: t => b != blankByte && decide (k < k') && Mem.wf ((k', b') :: t)

/-- The unsigned value of `n` bytes from address `a`, little-endian, addresses modulo 2^XLEN (R15, R62). -/
def Mem.readLE (c : Params) (m : Mem) (a : Nat) : Nat → Nat
  | 0 => 0
  | n + 1 => (Mem.read m (a % 2 ^ c.xbits)).toNat + 256 * Mem.readLE c m (a + 1) n

/-- Byte `k` of an element value (R62). -/
def byteOf {W : Nat} (val : BitVec W) (k : Nat) : Byte := val.extractLsb' (8 * k) 8

/-- The byte writes of `MemWrite(a, W/8, val)`: little-endian, addresses modulo 2^XLEN (R15, R62). -/
def elemBytes (c : Params) (a : XWord) {W : Nat} (val : BitVec W) : List (Nat × Byte) :=
  (List.range (W / 8)).map (fun k => ((a.toNat + k) % 2 ^ c.xbits, byteOf val k))

/-- Perform byte writes in order. -/
def Mem.writes (m : Mem) (ws : List (Nat × Byte)) : Mem := ws.foldl (fun m p => Mem.write m p.1 p.2) m

/-- Put an address into a strictly rising list of addresses. -/
def insertAddr (a : Nat) : List Nat → List Nat
  | [] => [a]
  | k :: t => if a < k then a :: k :: t else if a = k then k :: t else k :: insertAddr a t

/-- Store bytes: memory changes, and a later fetch is not guaranteed to see them (R76). -/
def State.storeBytes (s : State) (ws : List (Nat × Byte)) : State :=
  { s with mem := Mem.writes s.mem ws, unsynced := ws.foldl (fun l p => insertAddr p.1 l) s.unsynced }

/-- What the base ISA's FENCE.I does to this machine (R76): later fetches see every earlier store. No instruction of
the table executes it (log 33). -/
def fenceI (s : State) : State := { s with unsynced := [] }

/-! ### `mem_admits` (R69) and the check of one access -/

/-- Does the region hold the whole access? -/
def regionHolds (r : Region) (a n : Nat) : Bool := decide (r.base ≤ a ∧ a + n ≤ r.base + r.size)

/-- What the platform says of the bytes `a .. a+n-1`: the first region that holds them all, else `elsewhere` (log 7). -/
def attrAt (c : Params) (a n : Nat) : Attr :=
  match c.regions.find? (fun r => regionHolds r a n) with
  | some r => r.attr
  | none => c.elsewhere

/-- `mem_admits(addr, n, kind)` (R69). -/
def memAdmits (c : Params) (a n : Nat) (k : AccessKind) : Admit := (attrAt c a n).answer k

/-- Why an access does not happen: an exception with its trap value (R69), or memory the model gives no meaning (R71). -/
inductive Stop where
  | raises (c : Cause) (tval : XWord)
  | device (a : XWord)
  deriving DecidableEq, Repr

/-- The address-misaligned cause of an access kind (R65). -/
def misalignedCause : AccessKind → Cause
  | .load => .loadAddressMisaligned
  | .store => .storeAddressMisaligned
  | .fetch => .instrAddressMisaligned

/-- The access-fault cause of an access kind (R69). -/
def accessFaultCause : AccessKind → Cause
  | .load => .loadAccessFault
  | .store => .storeAccessFault
  | .fetch => .instrAccessFault

/-- The page-fault cause of an access kind (R69). -/
def pageFaultCause : AccessKind → Cause
  | .load => .loadPageFault
  | .store => .storePageFault
  | .fetch => .instrPageFault

/-- The trap value of a refused access (R351): its address; for a misaligned access, which is split into bytes, the
address of the first byte that is itself not admitted (log 23). -/
def faultAddress (c : Params) (k : AccessKind) (a : XWord) (n : Nat) : XWord :=
  if a.toNat % n = 0 then a
  else
    match (List.range n).find? (fun j => memAdmits c ((a.toNat + j) % 2 ^ c.xbits) 1 k != .ok) with
    | some j => truncX c (a + BitVec.ofNat 64 j)
    | none => a

/-- The check of one element access of `n` bytes (R65, R69, R71, R252): misaligned first (D28), then `mem_admits`. -/
def checkAccess (c : Params) (k : AccessKind) (a : XWord) (n : Nat) : Option Stop :=
  if a.toNat % n ≠ 0 ∧ c.misaligned = .trap then some (.raises (misalignedCause k) a)
  else
    match memAdmits c a.toNat n k with
    | .accessFault => some (.raises (accessFaultCause k) (faultAddress c k a n))
    | .pageFault => some (.raises (pageFaultCause k) (faultAddress c k a n))
    | .ok => if (attrAt c a.toNat n).idempotent then none else some (.device a)

/-! ### Register writes and completion -/

/-- `x[r] <- a`; a write to `x0` is discarded (R12, R20). -/
def State.writeX (s : State) (r : RegNo) (a : XWord) : State :=
  if r = 0#5 then s
  else { s with x := s.x.set (regIdx r).val (truncX s.cfg a) (regIdx r).isLt }

/-- Mark the vector state dirty (R365). -/
def State.markDirty (s : State) : State := { s with mstatus := { s.mstatus with vs := .dirty } }

/-- The end of a vector instruction that completes (R22, R28, R365): `vstart <- 0`, the vector state dirty,
`pc <- pc + 4`, nothing reported (R350). -/
def State.complete (s : State) : State :=
  { s with
    vstart := 0
    mstatus := { s.mstatus with vs := .dirty }
    pc := truncX s.cfg (s.pc + 4)
    report := none
    draws := s.draws + 1 }

/-! ### Taking an exception (R350, R351, R356) and returning from one (R361) -/

/-- The exception codes (R351). -/
def Cause.code : Cause → Nat
  | .instrAddressMisaligned => 0
  | .instrAccessFault => 1
  | .illegalInstruction => 2
  | .loadAddressMisaligned => 4
  | .loadAccessFault => 5
  | .storeAddressMisaligned => 6
  | .storeAccessFault => 7
  | .instrPageFault => 12
  | .loadPageFault => 13
  | .storePageFault => 15

/-- The BASE of a trap vector register, its two MODE bits cleared: every synchronous exception goes there (R356). The
place of MODE is PRESUMED (log 10). -/
def tvecBase (c : Params) (t : XWord) : XWord := truncX c (t &&& ~~~3#64)

/-- Is the exception delegated to supervisor mode (R356, R362)? That a trap from machine mode never is, is PRESUMED
(log 9). -/
def State.delegated (s : State) (c : Cause) : Bool :=
  decide (s.priv ≠ .machine) && s.medeleg.getLsbD c.code

/-- Trap entry into machine mode (R356). -/
def State.enterM (s : State) (c : Cause) (tval : XWord) : State :=
  { s with
    mepc := s.pc
    mcause := BitVec.ofNat 64 c.code
    mtval := tval
    mstatus := { s.mstatus with mpp := s.priv, mpie := s.mstatus.mie, mie := false }
    priv := .machine
    pc := tvecBase s.cfg s.mtvec }

/-- Trap entry into supervisor mode, "in the same way" with the s registers (R356). -/
def State.enterS (s : State) (c : Cause) (tval : XWord) : State :=
  { s with
    sepc := s.pc
    scause := BitVec.ofNat 64 c.code
    stval := tval
    mstatus := { s.mstatus with spp := decide (s.priv = .supervisor), spie := s.mstatus.sie, sie := false }
    priv := .supervisor
    pc := tvecBase s.cfg s.stvec }

/-- Take a synchronous exception: report the triple (R350), then enter the trap (R356). -/
def State.takeTrap (s : State) (c : Cause) (tval : XWord) : State :=
  let r := { s with report := some ⟨c, tval, s.pc⟩, draws := s.draws + 1 }
  if s.delegated c then r.enterS c tval else r.enterM c tval

/-- Raise IllegalInstruction with the instruction word (R351, D25): nothing else changes (R29, R352). -/
def State.illegal (s : State) (insn : InsnWord) : State := s.takeTrap .illegalInstruction (insn.setWidth 64)

/-- Raise a memory exception at element `i`: `vstart <- i` first (R253, R357). -/
def State.elemTrap (s : State) (i : Nat) (c : Cause) (tval : XWord) : State :=
  ({ s with vstart := BitVec.ofNat 64 i, mstatus := { s.mstatus with vs := .dirty } }).takeTrap c tval

/-- What the base ISA's MRET restores (R361): `pc <- mepc`, the mode from MPP, the interrupt enable from MPIE. MPIE
becomes 1 and MPP user mode, PRESUMED (log 11). No instruction of the table executes it. -/
def trapReturnM (s : State) : State :=
  { s with
    pc := truncX s.cfg s.mepc
    priv := s.mstatus.mpp
    mstatus := { s.mstatus with mie := s.mstatus.mpie, mpie := true, mpp := .user } }

/-- What the base ISA's SRET restores (R361), with the s registers (log 11). No instruction of the table executes it. -/
def trapReturnS (s : State) : State :=
  { s with
    pc := truncX s.cfg s.sepc
    priv := if s.mstatus.spp then .supervisor else .user
    mstatus := { s.mstatus with sie := s.mstatus.spie, spie := true, spp := false } }

/-! ### The vector CSRs (R24 to R31, R49 to R52) -/

/-- The seven vector CSRs (R24). -/
inductive VCsr where
  | vstart
  | vxsat
  | vxrm
  | vcsr
  | vl
  | vtype
  | vlenb
  deriving DecidableEq, Repr

/-- The CSR addresses (R24). -/
def VCsr.address : VCsr → BitVec 12
  | .vstart => 0x008#12
  | .vxsat => 0x009#12
  | .vxrm => 0x00A#12
  | .vcsr => 0x00F#12
  | .vl => 0xC20#12
  | .vtype => 0xC21#12
  | .vlenb => 0xC22#12

/-- Address bits 11:10 = 11 mean read-only (R24, R372). -/
def VCsr.readOnly (k : VCsr) : Bool := k.address.extractLsb' 10 2 == 0b11#2

/-- `CSR[name]` (R12): what a read returns. -/
def VCsr.value (k : VCsr) (s : State) : XWord :=
  match k with
  | .vstart => s.vstart
  | .vxsat => s.vxsat.setWidth 64
  | .vxrm => s.vxrm.setWidth 64
  | .vcsr => (s.vxrm ++ s.vxsat).setWidth 64
  | .vl => s.vl
  | .vtype => s.vtype
  | .vlenb => BitVec.ofNat 64 s.cfg.vlenb

/-- `CSR[name] <- a` (R12): what a write stores. `vstart` keeps its low log2(VLEN) bits (R26); the upper bits written
to `vxsat`, `vxrm` and `vcsr` are ignored (D27); a write to `vcsr` writes `vxrm` and `vxsat` (R52). -/
def VCsr.store (k : VCsr) (s : State) (a : XWord) : State :=
  match k with
  | .vstart => { s with vstart := BitVec.ofNat 64 (a.toNat % s.cfg.vlen) }
  | .vxsat => { s with vxsat := a.extractLsb' 0 1 }
  | .vxrm => { s with vxrm := a.extractLsb' 0 2 }
  | .vcsr => { s with vxrm := a.extractLsb' 1 2, vxsat := a.extractLsb' 0 1 }
  | .vl => s
  | .vtype => s
  | .vlenb => s

/-- A read by a Zicsr instruction of the base ISA: IllegalInstruction while the vector unit is off (R25). -/
def readCsr (k : VCsr) (s : State) : Except Cause XWord :=
  if s.vsEnabled then .ok (k.value s) else .error .illegalInstruction

/-- A write by a Zicsr instruction of the base ISA: IllegalInstruction while the vector unit is off or for `vl`,
`vtype`, `vlenb`; else the write marks the vector state dirty (R25). -/
def writeCsr (k : VCsr) (a : XWord) (s : State) : Except Cause State :=
  if s.vsEnabled = false ∨ k.readOnly = true then .error .illegalInstruction
  else .ok (k.store s a).markDirty

/-! ### The vector-unit status (R365) -/

/-- The two-bit code of a status (R365). -/
def VsStatus.code : VsStatus → BitVec 2
  | .off => 0b00#2
  | .initial => 0b01#2
  | .clean => 0b10#2
  | .dirty => 0b11#2

/-- The status a two-bit code stands for (R365). -/
def VsStatus.ofCode (b : BitVec 2) : VsStatus :=
  match b with
  | 0b00#2 => .off
  | 0b01#2 => .initial
  | 0b10#2 => .clean
  | 0b11#2 => .dirty

/-- `mstatus.SD`: "summarises `VS`, `FS` and `XS`" (R365), read as: set while one of the three is Dirty (log 42). It has no
storage of its own. -/
def MStatus.sd (m : MStatus) : Bool := decide (m.vs = .dirty ∨ m.fs = .dirty ∨ m.xs = .dirty)

/-- `misa.V`, bit 21 of `misa`: the vector extension is present (R365). -/
def State.misaV (s : State) : Bool := s.misa.getLsbD 21

/-- What the base ISA's write of the `VS` field of `mstatus`, or of its mirror in `sstatus`, does (R365, R381). No
instruction of the table executes it. DESIGN CHOICE: a write of Off keeps the vector registers and CSRs, which R370 does
not promise (log 44). -/
def State.writeVs (s : State) (b : BitVec 2) : State := { s with mstatus := { s.mstatus with vs := VsStatus.ofCode b } }

/-! ### The fetch (R19, R62, R67, R76) -/

/-- What a fetch gives. -/
inductive Fetched where
  | word (w : InsnWord)
  | stops (r : Stop)
  deriving DecidableEq, Repr

/-- The byte a fetch sees: the byte in memory, unless it was stored to since the last FENCE.I, when nothing fixes what
the fetch sees (R76, log 20). -/
def fetchByte (s : State) (a : Nat) : Byte :=
  if s.unsynced.contains a then staleByte s.draws a else Mem.read s.mem a

/-- Byte address `k` of the instruction at `pc`, modulo 2^XLEN. -/
def fetchAddress (s : State) (k : Nat) : Nat := (s.pc.toNat + k) % 2 ^ s.cfg.xbits

/-- Is `pc` aligned for a fetch: to 4 bytes, or to 2 with the compressed extension (R22, R67)? -/
def fetchAligned (s : State) : Bool :=
  decide (s.pc.toNat % 4 = 0) || (s.cfg.compressed && decide (s.pc.toNat % 2 = 0))

/-- Fetch the word at `pc` (R62, R69). The exceptions of a fetch are the base ISA's (R351, R67); their trap value, the
`pc`, is PRESUMED (log 26). -/
def fetch (s : State) : Fetched :=
  if fetchAligned s = false then .stops (.raises .instrAddressMisaligned s.pc)
  else
    match memAdmits s.cfg s.pc.toNat 4 .fetch with
    | .accessFault => .stops (.raises .instrAccessFault s.pc)
    | .pageFault => .stops (.raises .instrPageFault s.pc)
    | .ok =>
      if (attrAt s.cfg s.pc.toNat 4).idempotent then
        .word (wordOfBytes (fetchByte s (fetchAddress s 0)) (fetchByte s (fetchAddress s 1))
          (fetchByte s (fetchAddress s 2)) (fetchByte s (fetchAddress s 3)))
      else .stops (.device s.pc)

/-- Store a word where the next fetch reads it, as if from outside the machine (log 32). -/
def placeWord (s : State) (w : InsnWord) : State :=
  let at4 := (List.range 4).map (fun k => (fetchAddress s k, byteOfWord w k))
  { s with
    mem := Mem.writes s.mem at4
    unsynced := s.unsynced.filter (fun a => !(at4.map (·.1)).contains a) }

end Sys2Proof.Machine
end

