-- ==== Sys2Proof/Machine/Loops.lean ====
section
/-! DEFINITION. The operations the meanings share: the free values of a step, the element loops of the arithmetic
instructions (R153 to R156), of the loads (R252, R254, R284, R289, R290) and of the stores (R312, R313, R331, R332),
and the configuration operation (R133 to R136). -/

namespace Sys2Proof.Machine

open Sys2Proof.Config

/-! ### Free values (R45, R254) -/

/-- `agn(old, W)` for element `i`: the old value or all ones (R45). Log 13. -/
def agnElem (s : State) (i : Nat) {W : Nat} (old : BitVec W) : BitVec W :=
  match s.cfg.schedule with
  | .quiet => old
  | .free => if agnosticOnes s.draws i then BitVec.allOnes W else old

/-- `agn_bit(old)` for mask bit `i`: 0 or 1 (R45). Log 14. -/
def agnBit (s : State) (i : Nat) (old : Bool) : Bool :=
  match s.cfg.schedule with
  | .quiet => old
  | .free => maskTailBit s.draws i

/-- What element `i` holds when a load may have overwritten it with anything (R254, R284 (c)). Log 15. -/
def residueElem (s : State) (i : Nat) {W : Nat} (old : BitVec W) : BitVec W :=
  match s.cfg.schedule with
  | .quiet => old
  | .free => BitVec.ofNat W (residue s.draws i)

/-! ### Writing elements (R13) -/

/-- `r[off + W - 1 : off] <- val`, no other bit changing. -/
def setSlice (r : VReg) (off : Nat) {W : Nat} (val : BitVec W) : VReg :=
  (r &&& ~~~((BitVec.allOnes W).setWidth 65536 <<< off)) ||| (val.setWidth 65536 <<< off)

/-- Replace register number `n`. -/
def setVreg (f : VFile) (n : Nat) (r : VReg) : VFile := f.set (Fin.ofNat 32 n).val r (Fin.ofNat 32 n).isLt

/-- `set_elem(b, W, i, val)` (R13). -/
def setElem (c : Params) (f : VFile) (b W i : Nat) (val : BitVec W) : VFile :=
  setVreg f (b + i / (c.vlen / W)) (setSlice (vreg f (b + i / (c.vlen / W))) (i % (c.vlen / W) * W) val)

/-- Write the elements `i < n` for which `g i` gives a value, leaving the others. -/
def writeElems (c : Params) (b W : Nat) (g : Nat → Option (BitVec W)) : Nat → VFile → VFile
  | 0, f => f
  | n + 1, f =>
    match g n with
    | some val => setElem c (writeElems c b W g n f) b W n val
    | none => writeElems c b W g n f

/-- The number of element positions a vector destination of width `W` has: up to the end of its group (R42). -/
def State.slots (s : State) (W : Nat) : Nat := max s.vlmax (s.cfg.vlen / W)

/-! ### Arithmetic (R153, R155, R156) -/

/-- `precheck` (R153): the vector unit on, `vill = 0`, not reserved, `vstart < VLMAX`, `vstart` admitted by
`arith_vstart_policy` (R158). -/
def State.arithLegal (s : State) (reserved : Bool) : Bool :=
  s.vsEnabled && !s.vill && !reserved && decide (s.vstartN < s.vlmax) &&
    (decide (s.cfg.arithVstart = .execute) || decide (s.vstartN = 0))

/-- What element `i` of a vector destination is given (R155): nothing when prestart or undisturbed. -/
def arithSlot (s : State) (vd : RegNo) (W : Nat) (on : Nat → Bool) (result : Nat → BitVec W) (i : Nat) :
    Option (BitVec W) :=
  if i < s.vstartN then none
  else if i < s.vlN then
    if on i then some (result i) else if s.vma then some (agnElem s i (s.elem vd W i)) else none
  else if s.vta then some (agnElem s i (s.elem vd W i))
  else none

/-- `arith_vec(vd, W, result)` (R155), `on` telling which body elements are active. -/
def arithVec (s : State) (insn : InsnWord) (reserved : Bool) (vd : RegNo) (W : Nat) (on : Nat → Bool)
    (result : Nat → BitVec W) : Result :=
  if s.arithLegal reserved then
    if s.vstartN < s.vlN then
      .next ({ s with v := writeElems s.cfg vd.toNat W (arithSlot s vd W on result) (s.slots W) s.v }).complete
    else .next s.complete
  else .next (s.illegal insn)

/-- What mask bit `i` of a mask destination is given (R156): the tail is always agnostic. -/
def maskSlot (s : State) (vd : RegNo) (bit : Nat → Bool) (i : Nat) : Option (BitVec 1) :=
  if i < s.vstartN then none
  else if i < s.vlN then some (BitVec.ofBool (bit i))
  else some (BitVec.ofBool (agnBit s i (s.mask vd i)))

/-- `arith_mask(vd, bit)` (R156): a mask bit is an element of width 1. -/
def arithMask (s : State) (insn : InsnWord) (reserved : Bool) (vd : RegNo) (bit : Nat → Bool) : Result :=
  if s.arithLegal reserved then
    if s.vstartN < s.vlN then
      .next ({ s with v := writeElems s.cfg vd.toNat 1 (maskSlot s vd bit) s.cfg.vlen s.v }).complete
    else .next s.complete
  else .next (s.illegal insn)

/-! ### Addresses (R78) -/

/-- `x[rs1]`, the base address (R61). -/
def unitAddr (s : State) (rs1 : RegNo) (bytes i : Nat) : XWord :=
  truncX s.cfg (s.readX rs1 + BitVec.ofNat 64 (i * bytes))

/-- `x[rs1] + i*x[rs2]` modulo 2^XLEN (R78). -/
def stridedAddr (s : State) (rs1 rs2 : RegNo) (i : Nat) : XWord :=
  truncX s.cfg (s.readX rs1 + BitVec.ofNat 64 i * s.readX rs2)

/-- `x[rs1] + offset(i)` modulo 2^XLEN, the offset being element `i` of `vs2`, unsigned (R78). -/
def indexedAddr (s : State) (rs1 vs2 : RegNo) (w i : Nat) : XWord :=
  truncX s.cfg (s.readX rs1 + (s.elem vs2 w i).setWidth 64)

/-! ### Loads (R252, R254, R284) -/

/-- The first index in `i .. i+n-1` at which the check stops, with the reason. -/
def firstStop (chk : Nat → Option Stop) : Nat → Nat → Option (Nat × Stop)
  | _, 0 => none
  | i, n + 1 =>
    match chk i with
    | some r => some (i, r)
    | none => firstStop chk (i + 1) n

/-- The check of element `i`: only an active element touches memory (R70). -/
def elemCheck (s : State) (k : AccessKind) (W : Nat) (on : Nat → Bool) (addr : Nat → XWord) (i : Nat) : Option Stop :=
  if on i then checkAccess s.cfg k (addr i) (W / 8) else none

/-- `MemRead(a, W/8)` (R15, R62). -/
def loadElem (s : State) (W : Nat) (a : XWord) : BitVec W :=
  BitVec.ofNat W (Mem.readLE s.cfg s.mem a.toNat (W / 8))

/-- What element `i` of a load's destination is given. Elements below `limit` are loaded, or treated by `vma` when
inactive (R252); active elements from `limit` to `body - 1` may hold anything (R254, R284 (c)), inactive ones there are
agnostic when `late` says so; elements from `body` up are the tail. A load that reaches its end has `limit = body`. -/
def loadSlot (s : State) (vd : RegNo) (W : Nat) (on : Nat → Bool) (addr : Nat → XWord) (limit body : Nat)
    (vma late vta : Bool) (i : Nat) : Option (BitVec W) :=
  if i < s.vstartN then none
  else if i < limit then
    if on i then some (loadElem s W (addr i)) else if vma then some (agnElem s i (s.elem vd W i)) else none
  else if i < body then
    if on i then some (residueElem s i (s.elem vd W i))
    else if late then some (agnElem s i (s.elem vd W i)) else none
  else if vta then some (agnElem s i (s.elem vd W i))
  else none

/-- The state with a load's destination written. -/
def State.loaded (s : State) (vd : RegNo) (W : Nat) (on : Nat → Bool) (addr : Nat → XWord) (limit body : Nat)
    (vma late vta : Bool) (n : Nat) : State :=
  { s with v := writeElems s.cfg vd.toNat W (loadSlot s vd W on addr limit body vma late vta) n s.v }

/-- The load loop (R252, and with their own length R289 and R290): elements `vstart .. body-1` of width `W`, `n`
element positions in the destination. The lowest-indexed active element whose access stops decides (D10). -/
def loadLoop (s : State) (vd : RegNo) (W body n : Nat) (on : Nat → Bool) (addr : Nat → XWord) (vma vta : Bool) :
    Result :=
  if s.vstartN < body then
    match firstStop (elemCheck s .load W on addr) s.vstartN (body - s.vstartN) with
    | none => .next (s.loaded vd W on addr body body vma vma vta n).complete
    | some (i, .raises c tval) => .next ((s.loaded vd W on addr i body vma vma vta n).elemTrap i c tval)
    | some (_, .device a) => .refused (.notMainMemory a)
  else .next s.complete

/-- The length a fault-only-first load sets out to process (R284 (d)): `vl` under `never`, any value from `lo` to `vl`
under `may_trim`. Log 18. -/
def ffStart (s : State) : Nat :=
  match s.cfg.ffTrim with
  | .never => s.vlN
  | .mayTrim =>
    let lo := if s.vstartN = 0 then 1 else s.vstartN
    lo + ffLimit s.draws % (s.vlN - lo + 1)

/-- The end of a fault-only-first load that processed the elements below `limit`: `vl <- limit` (R284). -/
def ffDone (s : State) (vd : RegNo) (W : Nat) (on : Nat → Bool) (addr : Nat → XWord) (limit : Nat) : State :=
  ({ (s.loaded vd W on addr limit s.vlN s.vma s.vta s.vta (s.slots W)) with vl := BitVec.ofNat 64 limit }).complete

/-- The fault-only-first loop (R284): a fault of element 0 traps, a fault of a later element trims `vl`. -/
def ffLoop (s : State) (vd : RegNo) (W : Nat) (on : Nat → Bool) (addr : Nat → XWord) : Result :=
  if s.vstartN < s.vlN then
    match firstStop (elemCheck s .load W on addr) s.vstartN (ffStart s - s.vstartN) with
    | none => .next (ffDone s vd W on addr (ffStart s))
    | some (0, .raises c tval) =>
      .next ((s.loaded vd W on addr 0 s.vlN s.vma s.vma s.vta (s.slots W)).elemTrap 0 c tval)
    | some (i + 1, .raises _ _) => .next (ffDone s vd W on addr (i + 1))
    | some (_, .device a) => .refused (.notMainMemory a)
  else .next s.complete

/-- Checks (1) to (4) of R252 and R312, in order. -/
def State.memLegal (s : State) (reserved : Bool) : Bool :=
  s.vsEnabled && !s.vill && !reserved && decide (s.vstartN < s.vlmax)

/-- `vload(vd, W, addr)` (R252). -/
def vload (s : State) (insn : InsnWord) (reserved : Bool) (vd : RegNo) (W : Nat) (vm : Bool) (addr : Nat → XWord) :
    Result :=
  if s.memLegal reserved then loadLoop s vd W s.vlN (s.slots W) (s.maskOn vm) addr s.vma s.vta
  else .next (s.illegal insn)

/-- `vleff(vd, W)` (R284). -/
def vleff (s : State) (insn : InsnWord) (reserved : Bool) (vd : RegNo) (W : Nat) (vm : Bool) (addr : Nat → XWord) :
    Result :=
  if s.memLegal reserved then ffLoop s vd W (s.maskOn vm) addr else .next (s.illegal insn)

/-- `evl = ceil(vl/8)`, the length in bytes of a mask load or store (R289, R331). -/
def State.maskEvl (s : State) : Nat := (s.vlN + 7) / 8

/-- The mask load (R289): always tail-agnostic. -/
def vloadMask (s : State) (insn : InsnWord) (vd rs1 : RegNo) : Result :=
  if s.vsEnabled && !s.vill then
    loadLoop s vd 8 s.maskEvl (s.cfg.vlen / 8) (fun _ => true) (unitAddr s rs1 1) false true
  else .next (s.illegal insn)

/-- `vlwhole(vd, n, w)` (R290): no `vtype`, no mask, no tail. -/
def vloadWhole (s : State) (insn : InsnWord) (vd rs1 : RegNo) (n w : Nat) : Result :=
  if s.vsEnabled && decide (vd.toNat % n = 0 ∧ w ≤ s.cfg.elen) then
    loadLoop s vd w (n * s.cfg.vlen / w) (n * s.cfg.vlen / w) (fun _ => true) (unitAddr s rs1 (w / 8)) false false
  else .next (s.illegal insn)

/-! ### Stores (R312, R313) -/

/-- The byte writes of the active elements `vstart .. body-1` that `done` admits, in element order. -/
def storeWrites (s : State) (vs3 : RegNo) (W body : Nat) (on : Nat → Bool) (addr : Nat → XWord) (done : Nat → Bool) :
    List (Nat × Byte) :=
  (List.range' s.vstartN (body - s.vstartN)).flatMap
    (fun i => if on i && done i then elemBytes s.cfg (addr i) (s.elem vs3 W i) else [])

/-- The values written to one address, in order. -/
def writersOf (ws : List (Nat × Byte)) (a : Nat) : List Byte := (ws.filter (fun p => p.1 == a)).map (·.2)

/-- What the writes leave (R72): in element order for an ordered store; else each byte is that of any one of the
elements that write it. Log 17. -/
def landed (s : State) (ordered : Bool) (ws : List (Nat × Byte)) : List (Nat × Byte) :=
  if ordered || decide (s.cfg.schedule = .quiet) then ws
  else ws.map (fun p =>
    (p.1, (writersOf ws p.1).getD (overlapWinner s.draws p.1 % (writersOf ws p.1).length) p.2))

/-- Which elements a store that traps at `i` has written (R313): those below `i`; any or none of those above `i` whose
own access would not stop. Log 16. -/
def storeDone (s : State) (W : Nat) (on : Nat → Bool) (addr : Nat → XWord) (i j : Nat) : Bool :=
  decide (j < i) ||
    (decide (i < j) && decide (s.cfg.schedule = .free) && storePerformed s.draws j &&
      (elemCheck s .store W on addr j).isNone)

/-- The store loop (R312, and with their own length R331 and R332). -/
def storeLoop (s : State) (vs3 : RegNo) (W body : Nat) (on : Nat → Bool) (addr : Nat → XWord) (ordered : Bool) :
    Result :=
  if s.vstartN < body then
    match firstStop (elemCheck s .store W on addr) s.vstartN (body - s.vstartN) with
    | none => .next (s.storeBytes (landed s ordered (storeWrites s vs3 W body on addr (fun _ => true)))).complete
    | some (i, .raises c tval) =>
      .next ((s.storeBytes (landed s ordered (storeWrites s vs3 W body on addr (storeDone s W on addr i)))).elemTrap
        i c tval)
    | some (_, .device a) => .refused (.notMainMemory a)
  else .next s.complete

/-- `vstore(vs3, W, addr)` (R312). -/
def vstore (s : State) (insn : InsnWord) (reserved : Bool) (vs3 : RegNo) (W : Nat) (vm : Bool) (addr : Nat → XWord)
    (ordered : Bool) : Result :=
  if s.memLegal reserved then storeLoop s vs3 W s.vlN (s.maskOn vm) addr ordered else .next (s.illegal insn)

/-- The mask store (R331). Its bytes never overlap, so their order does not matter. -/
def vstoreMask (s : State) (insn : InsnWord) (vs3 rs1 : RegNo) : Result :=
  if s.vsEnabled && !s.vill then storeLoop s vs3 8 s.maskEvl (fun _ => true) (unitAddr s rs1 1) true
  else .next (s.illegal insn)

/-- `vswhole(vs3, n)` (R332). Its bytes never overlap, so their order does not matter. -/
def vstoreWhole (s : State) (insn : InsnWord) (vs3 rs1 : RegNo) (n : Nat) : Result :=
  if s.vsEnabled && decide (vs3.toNat % n = 0) then
    storeLoop s vs3 8 (n * s.cfg.vlen / 8) (fun _ => true) (unitAddr s rs1 1) true
  else .next (s.illegal insn)

/-! ### Configuration (R131 to R136) -/

/-- The required settings: every SEW <= ELEN with LMUL >= 1, and SEW <= LMUL*ELEN with LMUL < 1 (R133). -/
def requiredVtype (c : Params) (vsew vlmul : BitVec 3) : Bool :=
  decide (sewOf vsew ≤ c.elen) &&
    (decide (8 ≤ lmul8Of vlmul) || decide (sewOf vsew ≤ lmul8Of vlmul * c.elen / 8))

/-- `supports_vtype` (R133, D14): the required settings and the implementation's further ones, of which none has
VLMAX below 1 (R35, log 30). -/
def supportsVtype (c : Params) (vsew vlmul : BitVec 3) : Bool :=
  decide (vsew.toNat ≤ 3) && decide (vlmul ≠ 0b100#3) && decide (sewOf vsew ≤ c.elen) &&
    (requiredVtype c vsew vlmul || (c.extraVtypes.contains (vsew, vlmul) && decide (1 ≤ vlmaxOf c vsew vlmul)))

/-- Is a `vtype` candidate supported (R133, R135): bits XLEN-1:8 zero and a supported setting? -/
def vtypeOk (c : Params) (cand : XWord) : Bool :=
  decide (cand.toNat < 256) && supportsVtype c (fieldVsew cand) (fieldVlmul cand)

/-- `vl_policy(AVL, VLMAX)` (R134): only between VLMAX and 2*VLMAX is there a choice. Log 19. -/
def chooseVl (c : Params) (avl vlmax : Nat) : Nat :=
  if avl ≤ vlmax then avl
  else if avl < 2 * vlmax then
    match c.vlPolicy with
    | .minimum => min avl vlmax
    | .implementation => (avl + 1) / 2 + vlChoice avl vlmax % (vlmax - (avl + 1) / 2 + 1)
  else vlmax

/-- Where the AVL comes from (R131). -/
inductive AvlSel where
  | reg (r : RegNo)
  | imm (u : BitVec 5)
  deriving DecidableEq, Repr

/-- The AVL (R131), or none for the reserved use of the `rs1 = x0`, `rd = x0` form (R136). -/
def avlOf (s : State) (rd : RegNo) (sel : AvlSel) (newVlmax : Nat) : Option Nat :=
  match sel with
  | .imm u => some u.toNat
  | .reg r =>
    if r ≠ 0#5 then some (s.readX r).toNat
    else if rd ≠ 0#5 then some (2 ^ s.cfg.xbits - 1)
    else if s.vill = true ∨ newVlmax ≠ s.vlmax then none
    else some s.vlN

/-- The new `vl` and `vtype` (R135): `vill = 1`, all else 0, when the candidate is not supported. -/
def vsetResult (s : State) (rd : RegNo) (sel : AvlSel) (cand : XWord) : XWord × XWord :=
  let bad : XWord × XWord := (0, BitVec.twoPow 64 (s.cfg.xbits - 1))
  if vtypeOk s.cfg cand then
    let newVlmax := vlmaxOf s.cfg (fieldVsew cand) (fieldVlmul cand)
    match avlOf s rd sel newVlmax with
    | some avl => (BitVec.ofNat 64 (chooseVl s.cfg avl newVlmax), cand)
    | none => bad
  else bad

/-- `vset(rd, sel, cand)` (R135). -/
def vset (s : State) (insn : InsnWord) (rd : RegNo) (sel : AvlSel) (cand : XWord) : Result :=
  if s.vsEnabled then
    let r := vsetResult s rd sel cand
    .next ((({ s with vl := r.1, vtype := r.2 } : State).writeX rd r.1).complete)
  else .next (s.illegal insn)

end Sys2Proof.Machine
end

