-- ==== Sys2Proof/Machine/Carry.lean ====
section
/-! DEFINITION. Add with carry and subtract with borrow (R215 to R234). `v0` is a data operand here, never an
execution mask (C8): every body element is written. -/

namespace Sys2Proof.Machine

/-- Is a SEW-wide operand group in order (R39)? -/
def sewGroupOk (s : State) (r : RegNo) : Bool := groupOk s.cfg r s.lmul8 s.sew

/-- R217 for the forms with one vector source; (a), `vm = 1`, is the decoder's. -/
def adcReserved (s : State) (vd vs2 : RegNo) : Bool := !(decide (vd ≠ 0#5) && sewGroupOk s vd && sewGroupOk s vs2)

/-- R217 for the forms with two vector sources. -/
def adcReservedVv (s : State) (vd vs2 vs1 : RegNo) : Bool := adcReserved s vd vs2 || !sewGroupOk s vs1

/-- What R218 asks of a source group: (a) or (b), and (c). -/
def carrySourceOk (s : State) (vd vs : RegNo) : Bool := sewGroupOk s vs && overlapOk vd 1 8 vs s.sew s.lmul8

/-- R218 for the forms with one vector source. -/
def madcReserved (s : State) (vd vs2 : RegNo) : Bool := !carrySourceOk s vd vs2

/-- R218 for the forms with two vector sources. -/
def madcReservedVv (s : State) (vd vs2 vs1 : RegNo) : Bool := !(carrySourceOk s vd vs2 && carrySourceOk s vd vs1)

/-- `vadc.vvm` (R219). -/
def execVadcVvm (vd vs2 vs1 : RegNo) (s : State) : Result :=
  arithVec s (encode (.vadcVvm vd vs2 vs1)) (adcReservedVv s vd vs2 vs1) vd s.sew (fun _ => true)
    (fun i => addCarry (s.elem vs2 s.sew i) (s.elem vs1 s.sew i) (carryBit s true i))

/-- `vadc.vxm` (R220). -/
def execVadcVxm (vd vs2 rs1 : RegNo) (s : State) : Result :=
  arithVec s (encode (.vadcVxm vd vs2 rs1)) (adcReserved s vd vs2) vd s.sew (fun _ => true)
    (fun i => addCarry (s.elem vs2 s.sew i) (scalarOp s rs1 s.sew) (carryBit s true i))

/-- `vadc.vim` (R221). -/
def execVadcVim (vd vs2 : RegNo) (imm : BitVec 5) (s : State) : Result :=
  arithVec s (encode (.vadcVim vd vs2 imm)) (adcReserved s vd vs2) vd s.sew (fun _ => true)
    (fun i => addCarry (s.elem vs2 s.sew i) (immOp imm s.sew) (carryBit s true i))

/-- `vmadc.vvm` (R222). -/
def execVmadcVvm (vd vs2 vs1 : RegNo) (s : State) : Result :=
  arithMask s (encode (.vmadcVvm vd vs2 vs1)) (madcReservedVv s vd vs2 vs1) vd
    (fun i => carryOut (s.elem vs2 s.sew i) (s.elem vs1 s.sew i) (carryBit s true i))

/-- `vmadc.vxm` (R223). -/
def execVmadcVxm (vd vs2 rs1 : RegNo) (s : State) : Result :=
  arithMask s (encode (.vmadcVxm vd vs2 rs1)) (madcReserved s vd vs2) vd
    (fun i => carryOut (s.elem vs2 s.sew i) (scalarOp s rs1 s.sew) (carryBit s true i))

/-- `vmadc.vim` (R224). -/
def execVmadcVim (vd vs2 : RegNo) (imm : BitVec 5) (s : State) : Result :=
  arithMask s (encode (.vmadcVim vd vs2 imm)) (madcReserved s vd vs2) vd
    (fun i => carryOut (s.elem vs2 s.sew i) (immOp imm s.sew) (carryBit s true i))

/-- `vmadc.vv` (R225). -/
def execVmadcVv (vd vs2 vs1 : RegNo) (s : State) : Result :=
  arithMask s (encode (.vmadcVv vd vs2 vs1)) (madcReservedVv s vd vs2 vs1) vd
    (fun i => carryOut (s.elem vs2 s.sew i) (s.elem vs1 s.sew i) (carryBit s false i))

/-- `vmadc.vx` (R226). -/
def execVmadcVx (vd vs2 rs1 : RegNo) (s : State) : Result :=
  arithMask s (encode (.vmadcVx vd vs2 rs1)) (madcReserved s vd vs2) vd
    (fun i => carryOut (s.elem vs2 s.sew i) (scalarOp s rs1 s.sew) (carryBit s false i))

/-- `vmadc.vi` (R227). -/
def execVmadcVi (vd vs2 : RegNo) (imm : BitVec 5) (s : State) : Result :=
  arithMask s (encode (.vmadcVi vd vs2 imm)) (madcReserved s vd vs2) vd
    (fun i => carryOut (s.elem vs2 s.sew i) (immOp imm s.sew) (carryBit s false i))

/-- `vsbc.vvm` (R228). -/
def execVsbcVvm (vd vs2 vs1 : RegNo) (s : State) : Result :=
  arithVec s (encode (.vsbcVvm vd vs2 vs1)) (adcReservedVv s vd vs2 vs1) vd s.sew (fun _ => true)
    (fun i => subBorrow (s.elem vs2 s.sew i) (s.elem vs1 s.sew i) (carryBit s true i))

/-- `vsbc.vxm` (R229). -/
def execVsbcVxm (vd vs2 rs1 : RegNo) (s : State) : Result :=
  arithVec s (encode (.vsbcVxm vd vs2 rs1)) (adcReserved s vd vs2) vd s.sew (fun _ => true)
    (fun i => subBorrow (s.elem vs2 s.sew i) (scalarOp s rs1 s.sew) (carryBit s true i))

/-- `vmsbc.vvm` (R230). -/
def execVmsbcVvm (vd vs2 vs1 : RegNo) (s : State) : Result :=
  arithMask s (encode (.vmsbcVvm vd vs2 vs1)) (madcReservedVv s vd vs2 vs1) vd
    (fun i => borrowOut (s.elem vs2 s.sew i) (s.elem vs1 s.sew i) (carryBit s true i))

/-- `vmsbc.vxm` (R231). -/
def execVmsbcVxm (vd vs2 rs1 : RegNo) (s : State) : Result :=
  arithMask s (encode (.vmsbcVxm vd vs2 rs1)) (madcReserved s vd vs2) vd
    (fun i => borrowOut (s.elem vs2 s.sew i) (scalarOp s rs1 s.sew) (carryBit s true i))

/-- `vmsbc.vv` (R232). -/
def execVmsbcVv (vd vs2 vs1 : RegNo) (s : State) : Result :=
  arithMask s (encode (.vmsbcVv vd vs2 vs1)) (madcReservedVv s vd vs2 vs1) vd
    (fun i => borrowOut (s.elem vs2 s.sew i) (s.elem vs1 s.sew i) (carryBit s false i))

/-- `vmsbc.vx` (R233). -/
def execVmsbcVx (vd vs2 rs1 : RegNo) (s : State) : Result :=
  arithMask s (encode (.vmsbcVx vd vs2 rs1)) (madcReserved s vd vs2) vd
    (fun i => borrowOut (s.elem vs2 s.sew i) (scalarOp s rs1 s.sew) (carryBit s false i))


end Sys2Proof.Machine
end

