-- ==== Sys2Proof/Machine/Configuration.lean ====
section
/-! DEFINITION. The configuration-setting instructions (R130 to R141). -/

namespace Sys2Proof.Machine

/-- `vsetvli` (R137): AVL from `rs1`, candidate `zimm[10:0]` zero-extended. -/
def execVsetvli (rd rs1 : RegNo) (zimm : BitVec 11) (s : State) : Result :=
  vset s (encode (.vsetvli rd rs1 zimm)) rd (.reg rs1) (zimm.setWidth 64)

/-- `vsetivli` (R138): AVL `uimm`, candidate `zimm[9:0]` zero-extended. -/
def execVsetivli (rd : RegNo) (uimm : BitVec 5) (zimm : BitVec 10) (s : State) : Result :=
  vset s (encode (.vsetivli rd uimm zimm)) rd (.imm uimm) (zimm.setWidth 64)

/-- `vsetvl` (R139): AVL from `rs1`, candidate `x[rs2]`. -/
def execVsetvl (rd rs1 rs2 : RegNo) (s : State) : Result :=
  vset s (encode (.vsetvl rd rs1 rs2)) rd (.reg rs1) (s.readX rs2)


end Sys2Proof.Machine
end

