-- ==== Sys2Proof/Machine/Extension.lean ====
section
/-! DEFINITION. Vector integer extension (R200 to R208). -/

namespace Sys2Proof.Machine

/-- R201, for the factor `k` of the suffix `.vf<k>`: source EEW SEW/k and EMUL LMUL/k. -/
def extReserved (s : State) (k : Nat) (vd vs2 : RegNo) (vm : Bool) : Bool :=
  !(groupOk s.cfg vd s.lmul8 s.sew && groupOk s.cfg vs2 (s.lmul8 / k) (s.sew / k) && v0Ok vd vm &&
    overlapOk vd s.sew s.lmul8 vs2 (s.sew / k) (s.lmul8 / k))

/-- `vzext.vf8` (R202). -/
def execVzextVf8 (vd vs2 : RegNo) (vm : Bool) (s : State) : Result :=
  arithVec s (encode (.vzextVf8 vd vs2 vm)) (extReserved s 8 vd vs2 vm) vd s.sew (s.maskOn vm)
    (fun i => (s.elem vs2 (s.sew / 8) i).setWidth s.sew)

/-- `vsext.vf8` (R203). -/
def execVsextVf8 (vd vs2 : RegNo) (vm : Bool) (s : State) : Result :=
  arithVec s (encode (.vsextVf8 vd vs2 vm)) (extReserved s 8 vd vs2 vm) vd s.sew (s.maskOn vm)
    (fun i => (s.elem vs2 (s.sew / 8) i).signExtend s.sew)

/-- `vzext.vf4` (R204). -/
def execVzextVf4 (vd vs2 : RegNo) (vm : Bool) (s : State) : Result :=
  arithVec s (encode (.vzextVf4 vd vs2 vm)) (extReserved s 4 vd vs2 vm) vd s.sew (s.maskOn vm)
    (fun i => (s.elem vs2 (s.sew / 4) i).setWidth s.sew)

/-- `vsext.vf4` (R205). -/
def execVsextVf4 (vd vs2 : RegNo) (vm : Bool) (s : State) : Result :=
  arithVec s (encode (.vsextVf4 vd vs2 vm)) (extReserved s 4 vd vs2 vm) vd s.sew (s.maskOn vm)
    (fun i => (s.elem vs2 (s.sew / 4) i).signExtend s.sew)

/-- `vzext.vf2` (R206). -/
def execVzextVf2 (vd vs2 : RegNo) (vm : Bool) (s : State) : Result :=
  arithVec s (encode (.vzextVf2 vd vs2 vm)) (extReserved s 2 vd vs2 vm) vd s.sew (s.maskOn vm)
    (fun i => (s.elem vs2 (s.sew / 2) i).setWidth s.sew)

/-- `vsext.vf2` (R207). -/
def execVsextVf2 (vd vs2 : RegNo) (vm : Bool) (s : State) : Result :=
  arithVec s (encode (.vsextVf2 vd vs2 vm)) (extReserved s 2 vd vs2 vm) vd s.sew (s.maskOn vm)
    (fun i => (s.elem vs2 (s.sew / 2) i).signExtend s.sew)


end Sys2Proof.Machine
end

