-- ==== Sys2Proof/Machine/Loads.lean ====
section
/-! DEFINITION. The vector loads (R250 to R306). On idempotent memory the unordered and the ordered indexed
loads have one effect (R72). -/

namespace Sys2Proof.Machine

/-- R251 (a), (b), (c), (e) for a unit-stride, strided or fault-only-first load of width `w`; (g) is the decoder's. -/
def loadReserved (s : State) (w : Nat) (vd : RegNo) (vm : Bool) : Bool :=
  !(groupOk s.cfg vd (s.emul8 w) w && v0Ok vd vm)

/-- R251 (a) to (f) for an indexed load with offsets of width `w`. -/
def indexedLoadReserved (s : State) (w : Nat) (vd vs2 : RegNo) (vm : Bool) : Bool :=
  !(groupOk s.cfg vd s.lmul8 s.sew && groupOk s.cfg vs2 (s.emul8 w) w && v0Ok vd vm &&
    overlapOk vd s.sew s.lmul8 vs2 w (s.emul8 w))

/-- `vle8.v` (R256). -/
def execVle8V (vd rs1 : RegNo) (vm : Bool) (s : State) : Result :=
  vload s (encode (.vle8V vd rs1 vm)) (loadReserved s 8 vd vm) vd 8 vm (unitAddr s rs1 1)

/-- `vle16.v` (R257). -/
def execVle16V (vd rs1 : RegNo) (vm : Bool) (s : State) : Result :=
  vload s (encode (.vle16V vd rs1 vm)) (loadReserved s 16 vd vm) vd 16 vm (unitAddr s rs1 2)

/-- `vle32.v` (R258). -/
def execVle32V (vd rs1 : RegNo) (vm : Bool) (s : State) : Result :=
  vload s (encode (.vle32V vd rs1 vm)) (loadReserved s 32 vd vm) vd 32 vm (unitAddr s rs1 4)

/-- `vle64.v` (R259). -/
def execVle64V (vd rs1 : RegNo) (vm : Bool) (s : State) : Result :=
  vload s (encode (.vle64V vd rs1 vm)) (loadReserved s 64 vd vm) vd 64 vm (unitAddr s rs1 8)

/-- `vlse8.v` (R260). -/
def execVlse8V (vd rs1 rs2 : RegNo) (vm : Bool) (s : State) : Result :=
  vload s (encode (.vlse8V vd rs1 rs2 vm)) (loadReserved s 8 vd vm) vd 8 vm (stridedAddr s rs1 rs2)

/-- `vlse16.v` (R261). -/
def execVlse16V (vd rs1 rs2 : RegNo) (vm : Bool) (s : State) : Result :=
  vload s (encode (.vlse16V vd rs1 rs2 vm)) (loadReserved s 16 vd vm) vd 16 vm (stridedAddr s rs1 rs2)

/-- `vlse32.v` (R262). -/
def execVlse32V (vd rs1 rs2 : RegNo) (vm : Bool) (s : State) : Result :=
  vload s (encode (.vlse32V vd rs1 rs2 vm)) (loadReserved s 32 vd vm) vd 32 vm (stridedAddr s rs1 rs2)

/-- `vlse64.v` (R263). -/
def execVlse64V (vd rs1 rs2 : RegNo) (vm : Bool) (s : State) : Result :=
  vload s (encode (.vlse64V vd rs1 rs2 vm)) (loadReserved s 64 vd vm) vd 64 vm (stridedAddr s rs1 rs2)

/-- `vluxei8.v` (R264). -/
def execVluxei8V (vd rs1 vs2 : RegNo) (vm : Bool) (s : State) : Result :=
  vload s (encode (.vluxei8V vd rs1 vs2 vm)) (indexedLoadReserved s 8 vd vs2 vm) vd s.sew vm
    (indexedAddr s rs1 vs2 8)

/-- `vluxei16.v` (R265). -/
def execVluxei16V (vd rs1 vs2 : RegNo) (vm : Bool) (s : State) : Result :=
  vload s (encode (.vluxei16V vd rs1 vs2 vm)) (indexedLoadReserved s 16 vd vs2 vm) vd s.sew vm
    (indexedAddr s rs1 vs2 16)

/-- `vluxei32.v` (R266). -/
def execVluxei32V (vd rs1 vs2 : RegNo) (vm : Bool) (s : State) : Result :=
  vload s (encode (.vluxei32V vd rs1 vs2 vm)) (indexedLoadReserved s 32 vd vs2 vm) vd s.sew vm
    (indexedAddr s rs1 vs2 32)

/-- `vluxei64.v` (R267). -/
def execVluxei64V (vd rs1 vs2 : RegNo) (vm : Bool) (s : State) : Result :=
  vload s (encode (.vluxei64V vd rs1 vs2 vm)) (indexedLoadReserved s 64 vd vs2 vm) vd s.sew vm
    (indexedAddr s rs1 vs2 64)

/-- `vloxei8.v` (R268). -/
def execVloxei8V (vd rs1 vs2 : RegNo) (vm : Bool) (s : State) : Result :=
  vload s (encode (.vloxei8V vd rs1 vs2 vm)) (indexedLoadReserved s 8 vd vs2 vm) vd s.sew vm
    (indexedAddr s rs1 vs2 8)

/-- `vloxei16.v` (R269). -/
def execVloxei16V (vd rs1 vs2 : RegNo) (vm : Bool) (s : State) : Result :=
  vload s (encode (.vloxei16V vd rs1 vs2 vm)) (indexedLoadReserved s 16 vd vs2 vm) vd s.sew vm
    (indexedAddr s rs1 vs2 16)

/-- `vloxei32.v` (R270). -/
def execVloxei32V (vd rs1 vs2 : RegNo) (vm : Bool) (s : State) : Result :=
  vload s (encode (.vloxei32V vd rs1 vs2 vm)) (indexedLoadReserved s 32 vd vs2 vm) vd s.sew vm
    (indexedAddr s rs1 vs2 32)

/-- `vloxei64.v` (R271). -/
def execVloxei64V (vd rs1 vs2 : RegNo) (vm : Bool) (s : State) : Result :=
  vload s (encode (.vloxei64V vd rs1 vs2 vm)) (indexedLoadReserved s 64 vd vs2 vm) vd s.sew vm
    (indexedAddr s rs1 vs2 64)

/-- `vle8ff.v` (R285). -/
def execVle8ffV (vd rs1 : RegNo) (vm : Bool) (s : State) : Result :=
  vleff s (encode (.vle8ffV vd rs1 vm)) (loadReserved s 8 vd vm) vd 8 vm (unitAddr s rs1 1)

/-- `vle16ff.v` (R286). -/
def execVle16ffV (vd rs1 : RegNo) (vm : Bool) (s : State) : Result :=
  vleff s (encode (.vle16ffV vd rs1 vm)) (loadReserved s 16 vd vm) vd 16 vm (unitAddr s rs1 2)

/-- `vle32ff.v` (R287). -/
def execVle32ffV (vd rs1 : RegNo) (vm : Bool) (s : State) : Result :=
  vleff s (encode (.vle32ffV vd rs1 vm)) (loadReserved s 32 vd vm) vd 32 vm (unitAddr s rs1 4)

/-- `vle64ff.v` (R288). -/
def execVle64ffV (vd rs1 : RegNo) (vm : Bool) (s : State) : Result :=
  vleff s (encode (.vle64ffV vd rs1 vm)) (loadReserved s 64 vd vm) vd 64 vm (unitAddr s rs1 8)

/-- `vlm.v` (R289). -/
def execVlmV (vd rs1 : RegNo) (s : State) : Result :=
  vloadMask s (encode (.vlmV vd rs1)) vd rs1

/-- `vl1re8.v` (R291). -/
def execVl1re8V (vd rs1 : RegNo) (s : State) : Result :=
  vloadWhole s (encode (.vl1re8V vd rs1)) vd rs1 1 8

/-- `vl1re16.v` (R292). -/
def execVl1re16V (vd rs1 : RegNo) (s : State) : Result :=
  vloadWhole s (encode (.vl1re16V vd rs1)) vd rs1 1 16

/-- `vl1re32.v` (R293). -/
def execVl1re32V (vd rs1 : RegNo) (s : State) : Result :=
  vloadWhole s (encode (.vl1re32V vd rs1)) vd rs1 1 32

/-- `vl1re64.v` (R294). -/
def execVl1re64V (vd rs1 : RegNo) (s : State) : Result :=
  vloadWhole s (encode (.vl1re64V vd rs1)) vd rs1 1 64

/-- `vl2re8.v` (R295). -/
def execVl2re8V (vd rs1 : RegNo) (s : State) : Result :=
  vloadWhole s (encode (.vl2re8V vd rs1)) vd rs1 2 8

/-- `vl2re16.v` (R296). -/
def execVl2re16V (vd rs1 : RegNo) (s : State) : Result :=
  vloadWhole s (encode (.vl2re16V vd rs1)) vd rs1 2 16

/-- `vl2re32.v` (R297). -/
def execVl2re32V (vd rs1 : RegNo) (s : State) : Result :=
  vloadWhole s (encode (.vl2re32V vd rs1)) vd rs1 2 32

/-- `vl2re64.v` (R298). -/
def execVl2re64V (vd rs1 : RegNo) (s : State) : Result :=
  vloadWhole s (encode (.vl2re64V vd rs1)) vd rs1 2 64

/-- `vl4re8.v` (R299). -/
def execVl4re8V (vd rs1 : RegNo) (s : State) : Result :=
  vloadWhole s (encode (.vl4re8V vd rs1)) vd rs1 4 8

/-- `vl4re16.v` (R300). -/
def execVl4re16V (vd rs1 : RegNo) (s : State) : Result :=
  vloadWhole s (encode (.vl4re16V vd rs1)) vd rs1 4 16

/-- `vl4re32.v` (R301). -/
def execVl4re32V (vd rs1 : RegNo) (s : State) : Result :=
  vloadWhole s (encode (.vl4re32V vd rs1)) vd rs1 4 32

/-- `vl4re64.v` (R302). -/
def execVl4re64V (vd rs1 : RegNo) (s : State) : Result :=
  vloadWhole s (encode (.vl4re64V vd rs1)) vd rs1 4 64

/-- `vl8re8.v` (R303). -/
def execVl8re8V (vd rs1 : RegNo) (s : State) : Result :=
  vloadWhole s (encode (.vl8re8V vd rs1)) vd rs1 8 8

/-- `vl8re16.v` (R304). -/
def execVl8re16V (vd rs1 : RegNo) (s : State) : Result :=
  vloadWhole s (encode (.vl8re16V vd rs1)) vd rs1 8 16

/-- `vl8re32.v` (R305). -/
def execVl8re32V (vd rs1 : RegNo) (s : State) : Result :=
  vloadWhole s (encode (.vl8re32V vd rs1)) vd rs1 8 32

/-- `vl8re64.v` (R306). -/
def execVl8re64V (vd rs1 : RegNo) (s : State) : Result :=
  vloadWhole s (encode (.vl8re64V vd rs1)) vd rs1 8 64


end Sys2Proof.Machine
end

