-- ==== Sys2Proof/Machine/MaskLogical.lean ====
section
/-! DEFINITION. The mask-register AND (R245 to R247); `vmmv.m vd, vs` is `vmand.mm vd, vs, vs`. -/

namespace Sys2Proof.Machine

/-- `vmand.mm` (R246): no encoding of it is reserved beyond `vm = 0`, which is the decoder's. -/
def execVmandMm (vd vs2 vs1 : RegNo) (s : State) : Result :=
  arithMask s (encode (.vmandMm vd vs2 vs1)) false vd (fun i => s.mask vs2 i && s.mask vs1 i)


end Sys2Proof.Machine
end

