-- ==== Sys2Proof/Machine/Stores.lean ====
section
/-! DEFINITION. The vector stores (R310 to R336). Only `vsoxei` performs its writes in element order (R72). -/

namespace Sys2Proof.Machine

/-- R311 (a), (b), (c) for a unit-stride or strided store of width `w`; (e) is the decoder's. -/
def storeReserved (s : State) (w : Nat) (vs3 : RegNo) : Bool := !groupOk s.cfg vs3 (s.emul8 w) w

/-- R311 (a) to (d) for an indexed store with offsets of width `w`; no overlap matters. -/
def indexedStoreReserved (s : State) (w : Nat) (vs3 vs2 : RegNo) : Bool :=
  !(groupOk s.cfg vs3 s.lmul8 s.sew && groupOk s.cfg vs2 (s.emul8 w) w)

/-- `vse8.v` (R314). -/
def execVse8V (vs3 rs1 : RegNo) (vm : Bool) (s : State) : Result :=
  vstore s (encode (.vse8V vs3 rs1 vm)) (storeReserved s 8 vs3) vs3 8 vm (unitAddr s rs1 1) false

/-- `vse16.v` (R315). -/
def execVse16V (vs3 rs1 : RegNo) (vm : Bool) (s : State) : Result :=
  vstore s (encode (.vse16V vs3 rs1 vm)) (storeReserved s 16 vs3) vs3 16 vm (unitAddr s rs1 2) false

/-- `vse32.v` (R316). -/
def execVse32V (vs3 rs1 : RegNo) (vm : Bool) (s : State) : Result :=
  vstore s (encode (.vse32V vs3 rs1 vm)) (storeReserved s 32 vs3) vs3 32 vm (unitAddr s rs1 4) false

/-- `vse64.v` (R317). -/
def execVse64V (vs3 rs1 : RegNo) (vm : Bool) (s : State) : Result :=
  vstore s (encode (.vse64V vs3 rs1 vm)) (storeReserved s 64 vs3) vs3 64 vm (unitAddr s rs1 8) false

/-- `vsse8.v` (R318). -/
def execVsse8V (vs3 rs1 rs2 : RegNo) (vm : Bool) (s : State) : Result :=
  vstore s (encode (.vsse8V vs3 rs1 rs2 vm)) (storeReserved s 8 vs3) vs3 8 vm (stridedAddr s rs1 rs2) false

/-- `vsse16.v` (R319). -/
def execVsse16V (vs3 rs1 rs2 : RegNo) (vm : Bool) (s : State) : Result :=
  vstore s (encode (.vsse16V vs3 rs1 rs2 vm)) (storeReserved s 16 vs3) vs3 16 vm (stridedAddr s rs1 rs2) false

/-- `vsse32.v` (R320). -/
def execVsse32V (vs3 rs1 rs2 : RegNo) (vm : Bool) (s : State) : Result :=
  vstore s (encode (.vsse32V vs3 rs1 rs2 vm)) (storeReserved s 32 vs3) vs3 32 vm (stridedAddr s rs1 rs2) false

/-- `vsse64.v` (R321). -/
def execVsse64V (vs3 rs1 rs2 : RegNo) (vm : Bool) (s : State) : Result :=
  vstore s (encode (.vsse64V vs3 rs1 rs2 vm)) (storeReserved s 64 vs3) vs3 64 vm (stridedAddr s rs1 rs2) false

/-- `vsuxei8.v` (R322). -/
def execVsuxei8V (vs3 rs1 vs2 : RegNo) (vm : Bool) (s : State) : Result :=
  vstore s (encode (.vsuxei8V vs3 rs1 vs2 vm)) (indexedStoreReserved s 8 vs3 vs2) vs3 s.sew vm
    (indexedAddr s rs1 vs2 8) false

/-- `vsuxei16.v` (R323). -/
def execVsuxei16V (vs3 rs1 vs2 : RegNo) (vm : Bool) (s : State) : Result :=
  vstore s (encode (.vsuxei16V vs3 rs1 vs2 vm)) (indexedStoreReserved s 16 vs3 vs2) vs3 s.sew vm
    (indexedAddr s rs1 vs2 16) false

/-- `vsuxei32.v` (R324). -/
def execVsuxei32V (vs3 rs1 vs2 : RegNo) (vm : Bool) (s : State) : Result :=
  vstore s (encode (.vsuxei32V vs3 rs1 vs2 vm)) (indexedStoreReserved s 32 vs3 vs2) vs3 s.sew vm
    (indexedAddr s rs1 vs2 32) false

/-- `vsuxei64.v` (R325). -/
def execVsuxei64V (vs3 rs1 vs2 : RegNo) (vm : Bool) (s : State) : Result :=
  vstore s (encode (.vsuxei64V vs3 rs1 vs2 vm)) (indexedStoreReserved s 64 vs3 vs2) vs3 s.sew vm
    (indexedAddr s rs1 vs2 64) false

/-- `vsoxei8.v` (R326). -/
def execVsoxei8V (vs3 rs1 vs2 : RegNo) (vm : Bool) (s : State) : Result :=
  vstore s (encode (.vsoxei8V vs3 rs1 vs2 vm)) (indexedStoreReserved s 8 vs3 vs2) vs3 s.sew vm
    (indexedAddr s rs1 vs2 8) true

/-- `vsoxei16.v` (R327). -/
def execVsoxei16V (vs3 rs1 vs2 : RegNo) (vm : Bool) (s : State) : Result :=
  vstore s (encode (.vsoxei16V vs3 rs1 vs2 vm)) (indexedStoreReserved s 16 vs3 vs2) vs3 s.sew vm
    (indexedAddr s rs1 vs2 16) true

/-- `vsoxei32.v` (R328). -/
def execVsoxei32V (vs3 rs1 vs2 : RegNo) (vm : Bool) (s : State) : Result :=
  vstore s (encode (.vsoxei32V vs3 rs1 vs2 vm)) (indexedStoreReserved s 32 vs3 vs2) vs3 s.sew vm
    (indexedAddr s rs1 vs2 32) true

/-- `vsoxei64.v` (R329). -/
def execVsoxei64V (vs3 rs1 vs2 : RegNo) (vm : Bool) (s : State) : Result :=
  vstore s (encode (.vsoxei64V vs3 rs1 vs2 vm)) (indexedStoreReserved s 64 vs3 vs2) vs3 s.sew vm
    (indexedAddr s rs1 vs2 64) true

/-- `vsm.v` (R331). -/
def execVsmV (vs3 rs1 : RegNo) (s : State) : Result :=
  vstoreMask s (encode (.vsmV vs3 rs1)) vs3 rs1

/-- `vs1r.v` (R333). -/
def execVs1rV (vs3 rs1 : RegNo) (s : State) : Result :=
  vstoreWhole s (encode (.vs1rV vs3 rs1)) vs3 rs1 1

/-- `vs2r.v` (R334). -/
def execVs2rV (vs3 rs1 : RegNo) (s : State) : Result :=
  vstoreWhole s (encode (.vs2rV vs3 rs1)) vs3 rs1 2

/-- `vs4r.v` (R335). -/
def execVs4rV (vs3 rs1 : RegNo) (s : State) : Result :=
  vstoreWhole s (encode (.vs4rV vs3 rs1)) vs3 rs1 4

/-- `vs8r.v` (R336). -/
def execVs8rV (vs3 rs1 : RegNo) (s : State) : Result :=
  vstoreWhole s (encode (.vs8rV vs3 rs1)) vs3 rs1 8


end Sys2Proof.Machine
end

