-- ==== Sys2Proof/Machine/Widening.lean ====
section
/-! DEFINITION. Widening integer add and subtract (R169 to R187): the narrow operands are extended to
2*SEW bits first, without sign for `vwaddu` and `vwsubu`, with sign for `vwadd` and `vwsub`. -/

namespace Sys2Proof.Machine

/-- `zext_2SEW(elem(r, SEW, i))` (R170). -/
def State.zextElem (s : State) (r : RegNo) (i : Nat) : BitVec (2 * s.sew) := (s.elem r s.sew i).setWidth (2 * s.sew)

/-- `sext_2SEW(elem(r, SEW, i))` (R170). -/
def State.sextElem (s : State) (r : RegNo) (i : Nat) : BitVec (2 * s.sew) := (s.elem r s.sew i).signExtend (2 * s.sew)

/-- `zext_2SEW(scalar_op(r))` (R170). -/
def State.zextScalar (s : State) (r : RegNo) : BitVec (2 * s.sew) := (scalarOp s r s.sew).setWidth (2 * s.sew)

/-- `sext_2SEW(scalar_op(r))` (R170). -/
def State.sextScalar (s : State) (r : RegNo) : BitVec (2 * s.sew) := (scalarOp s r s.sew).signExtend (2 * s.sew)

/-- What R169 asks of the destination: (a), (b), (c), (f). -/
def wideDestOk (s : State) (vd : RegNo) (vm : Bool) : Bool :=
  groupOk s.cfg vd (2 * s.lmul8) (2 * s.sew) && v0Ok vd vm

/-- What R169 asks of a SEW-wide source: (d) or (e), and (g). -/
def wideNarrowOk (s : State) (vd vs : RegNo) : Bool :=
  groupOk s.cfg vs s.lmul8 s.sew && overlapOk vd (2 * s.sew) (2 * s.lmul8) vs s.sew s.lmul8

/-- R169 for a `.vv` form. -/
def reservedVv (s : State) (vd vs2 vs1 : RegNo) (vm : Bool) : Bool :=
  !(wideDestOk s vd vm && wideNarrowOk s vd vs2 && wideNarrowOk s vd vs1)

/-- R169 for a `.vx` form. -/
def reservedVx (s : State) (vd vs2 : RegNo) (vm : Bool) : Bool :=
  !(wideDestOk s vd vm && wideNarrowOk s vd vs2)

/-- R169 for a `.wv` form: `vs2` has the destination's EEW and may overlap it freely. -/
def reservedWv (s : State) (vd vs2 vs1 : RegNo) (vm : Bool) : Bool :=
  !(wideDestOk s vd vm && groupOk s.cfg vs2 (2 * s.lmul8) (2 * s.sew) && wideNarrowOk s vd vs1)

/-- R169 for a `.wx` form. -/
def reservedWx (s : State) (vd vs2 : RegNo) (vm : Bool) : Bool :=
  !(wideDestOk s vd vm && groupOk s.cfg vs2 (2 * s.lmul8) (2 * s.sew))

/-- `vwaddu.vv` (R172). -/
def execVwadduVv (vd vs2 vs1 : RegNo) (vm : Bool) (s : State) : Result :=
  arithVec s (encode (.vwadduVv vd vs2 vs1 vm)) (reservedVv s vd vs2 vs1 vm) vd (2 * s.sew) (s.maskOn vm)
    (fun i => s.zextElem vs2 i + s.zextElem vs1 i)

/-- `vwaddu.vx` (R173). -/
def execVwadduVx (vd vs2 rs1 : RegNo) (vm : Bool) (s : State) : Result :=
  arithVec s (encode (.vwadduVx vd vs2 rs1 vm)) (reservedVx s vd vs2 vm) vd (2 * s.sew) (s.maskOn vm)
    (fun i => s.zextElem vs2 i + s.zextScalar rs1)

/-- `vwadd.vv` (R174). -/
def execVwaddVv (vd vs2 vs1 : RegNo) (vm : Bool) (s : State) : Result :=
  arithVec s (encode (.vwaddVv vd vs2 vs1 vm)) (reservedVv s vd vs2 vs1 vm) vd (2 * s.sew) (s.maskOn vm)
    (fun i => s.sextElem vs2 i + s.sextElem vs1 i)

/-- `vwadd.vx` (R175). -/
def execVwaddVx (vd vs2 rs1 : RegNo) (vm : Bool) (s : State) : Result :=
  arithVec s (encode (.vwaddVx vd vs2 rs1 vm)) (reservedVx s vd vs2 vm) vd (2 * s.sew) (s.maskOn vm)
    (fun i => s.sextElem vs2 i + s.sextScalar rs1)

/-- `vwsubu.vv` (R176). -/
def execVwsubuVv (vd vs2 vs1 : RegNo) (vm : Bool) (s : State) : Result :=
  arithVec s (encode (.vwsubuVv vd vs2 vs1 vm)) (reservedVv s vd vs2 vs1 vm) vd (2 * s.sew) (s.maskOn vm)
    (fun i => s.zextElem vs2 i - s.zextElem vs1 i)

/-- `vwsubu.vx` (R177). -/
def execVwsubuVx (vd vs2 rs1 : RegNo) (vm : Bool) (s : State) : Result :=
  arithVec s (encode (.vwsubuVx vd vs2 rs1 vm)) (reservedVx s vd vs2 vm) vd (2 * s.sew) (s.maskOn vm)
    (fun i => s.zextElem vs2 i - s.zextScalar rs1)

/-- `vwsub.vv` (R178). -/
def execVwsubVv (vd vs2 vs1 : RegNo) (vm : Bool) (s : State) : Result :=
  arithVec s (encode (.vwsubVv vd vs2 vs1 vm)) (reservedVv s vd vs2 vs1 vm) vd (2 * s.sew) (s.maskOn vm)
    (fun i => s.sextElem vs2 i - s.sextElem vs1 i)

/-- `vwsub.vx` (R179). -/
def execVwsubVx (vd vs2 rs1 : RegNo) (vm : Bool) (s : State) : Result :=
  arithVec s (encode (.vwsubVx vd vs2 rs1 vm)) (reservedVx s vd vs2 vm) vd (2 * s.sew) (s.maskOn vm)
    (fun i => s.sextElem vs2 i - s.sextScalar rs1)

/-- `vwaddu.wv` (R180). -/
def execVwadduWv (vd vs2 vs1 : RegNo) (vm : Bool) (s : State) : Result :=
  arithVec s (encode (.vwadduWv vd vs2 vs1 vm)) (reservedWv s vd vs2 vs1 vm) vd (2 * s.sew) (s.maskOn vm)
    (fun i => s.elem vs2 (2 * s.sew) i + s.zextElem vs1 i)

/-- `vwaddu.wx` (R181). -/
def execVwadduWx (vd vs2 rs1 : RegNo) (vm : Bool) (s : State) : Result :=
  arithVec s (encode (.vwadduWx vd vs2 rs1 vm)) (reservedWx s vd vs2 vm) vd (2 * s.sew) (s.maskOn vm)
    (fun i => s.elem vs2 (2 * s.sew) i + s.zextScalar rs1)

/-- `vwadd.wv` (R182). -/
def execVwaddWv (vd vs2 vs1 : RegNo) (vm : Bool) (s : State) : Result :=
  arithVec s (encode (.vwaddWv vd vs2 vs1 vm)) (reservedWv s vd vs2 vs1 vm) vd (2 * s.sew) (s.maskOn vm)
    (fun i => s.elem vs2 (2 * s.sew) i + s.sextElem vs1 i)

/-- `vwadd.wx` (R183). -/
def execVwaddWx (vd vs2 rs1 : RegNo) (vm : Bool) (s : State) : Result :=
  arithVec s (encode (.vwaddWx vd vs2 rs1 vm)) (reservedWx s vd vs2 vm) vd (2 * s.sew) (s.maskOn vm)
    (fun i => s.elem vs2 (2 * s.sew) i + s.sextScalar rs1)

/-- `vwsubu.wv` (R184). -/
def execVwsubuWv (vd vs2 vs1 : RegNo) (vm : Bool) (s : State) : Result :=
  arithVec s (encode (.vwsubuWv vd vs2 vs1 vm)) (reservedWv s vd vs2 vs1 vm) vd (2 * s.sew) (s.maskOn vm)
    (fun i => s.elem vs2 (2 * s.sew) i - s.zextElem vs1 i)

/-- `vwsubu.wx` (R185). -/
def execVwsubuWx (vd vs2 rs1 : RegNo) (vm : Bool) (s : State) : Result :=
  arithVec s (encode (.vwsubuWx vd vs2 rs1 vm)) (reservedWx s vd vs2 vm) vd (2 * s.sew) (s.maskOn vm)
    (fun i => s.elem vs2 (2 * s.sew) i - s.zextScalar rs1)

/-- `vwsub.wv` (R186). -/
def execVwsubWv (vd vs2 vs1 : RegNo) (vm : Bool) (s : State) : Result :=
  arithVec s (encode (.vwsubWv vd vs2 vs1 vm)) (reservedWv s vd vs2 vs1 vm) vd (2 * s.sew) (s.maskOn vm)
    (fun i => s.elem vs2 (2 * s.sew) i - s.sextElem vs1 i)

/-- `vwsub.wx` (R187). -/
def execVwsubWx (vd vs2 rs1 : RegNo) (vm : Bool) (s : State) : Result :=
  arithVec s (encode (.vwsubWx vd vs2 rs1 vm)) (reservedWx s vd vs2 vm) vd (2 * s.sew) (s.maskOn vm)
    (fun i => s.elem vs2 (2 * s.sew) i - s.sextScalar rs1)


end Sys2Proof.Machine
end

