-- ==== Sys2Proof/Machine/Dispatch.lean ====
section
/-! DEFINITION. One arm per instruction, each the direct call of its meaning. -/

namespace Sys2Proof.Machine

/-- The meaning of an instruction. -/
def exec (i : Instr) (s : State) : Host.Outcome State Fault Refusal :=
  match i with
  | .vsetvli rd rs1 zimm => Sys2Proof.Machine.execVsetvli rd rs1 zimm s
  | .vsetivli rd uimm zimm => Sys2Proof.Machine.execVsetivli rd uimm zimm s
  | .vsetvl rd rs1 rs2 => Sys2Proof.Machine.execVsetvl rd rs1 rs2 s
  | .vwadduVv vd vs2 vs1 vm => Sys2Proof.Machine.execVwadduVv vd vs2 vs1 vm s
  | .vwadduVx vd vs2 rs1 vm => Sys2Proof.Machine.execVwadduVx vd vs2 rs1 vm s
  | .vwaddVv vd vs2 vs1 vm => Sys2Proof.Machine.execVwaddVv vd vs2 vs1 vm s
  | .vwaddVx vd vs2 rs1 vm => Sys2Proof.Machine.execVwaddVx vd vs2 rs1 vm s
  | .vwsubuVv vd vs2 vs1 vm => Sys2Proof.Machine.execVwsubuVv vd vs2 vs1 vm s
  | .vwsubuVx vd vs2 rs1 vm => Sys2Proof.Machine.execVwsubuVx vd vs2 rs1 vm s
  | .vwsubVv vd vs2 vs1 vm => Sys2Proof.Machine.execVwsubVv vd vs2 vs1 vm s
  | .vwsubVx vd vs2 rs1 vm => Sys2Proof.Machine.execVwsubVx vd vs2 rs1 vm s
  | .vwadduWv vd vs2 vs1 vm => Sys2Proof.Machine.execVwadduWv vd vs2 vs1 vm s
  | .vwadduWx vd vs2 rs1 vm => Sys2Proof.Machine.execVwadduWx vd vs2 rs1 vm s
  | .vwaddWv vd vs2 vs1 vm => Sys2Proof.Machine.execVwaddWv vd vs2 vs1 vm s
  | .vwaddWx vd vs2 rs1 vm => Sys2Proof.Machine.execVwaddWx vd vs2 rs1 vm s
  | .vwsubuWv vd vs2 vs1 vm => Sys2Proof.Machine.execVwsubuWv vd vs2 vs1 vm s
  | .vwsubuWx vd vs2 rs1 vm => Sys2Proof.Machine.execVwsubuWx vd vs2 rs1 vm s
  | .vwsubWv vd vs2 vs1 vm => Sys2Proof.Machine.execVwsubWv vd vs2 vs1 vm s
  | .vwsubWx vd vs2 rs1 vm => Sys2Proof.Machine.execVwsubWx vd vs2 rs1 vm s
  | .vzextVf8 vd vs2 vm => Sys2Proof.Machine.execVzextVf8 vd vs2 vm s
  | .vsextVf8 vd vs2 vm => Sys2Proof.Machine.execVsextVf8 vd vs2 vm s
  | .vzextVf4 vd vs2 vm => Sys2Proof.Machine.execVzextVf4 vd vs2 vm s
  | .vsextVf4 vd vs2 vm => Sys2Proof.Machine.execVsextVf4 vd vs2 vm s
  | .vzextVf2 vd vs2 vm => Sys2Proof.Machine.execVzextVf2 vd vs2 vm s
  | .vsextVf2 vd vs2 vm => Sys2Proof.Machine.execVsextVf2 vd vs2 vm s
  | .vadcVvm vd vs2 vs1 => Sys2Proof.Machine.execVadcVvm vd vs2 vs1 s
  | .vadcVxm vd vs2 rs1 => Sys2Proof.Machine.execVadcVxm vd vs2 rs1 s
  | .vadcVim vd vs2 imm => Sys2Proof.Machine.execVadcVim vd vs2 imm s
  | .vmadcVvm vd vs2 vs1 => Sys2Proof.Machine.execVmadcVvm vd vs2 vs1 s
  | .vmadcVxm vd vs2 rs1 => Sys2Proof.Machine.execVmadcVxm vd vs2 rs1 s
  | .vmadcVim vd vs2 imm => Sys2Proof.Machine.execVmadcVim vd vs2 imm s
  | .vmadcVv vd vs2 vs1 => Sys2Proof.Machine.execVmadcVv vd vs2 vs1 s
  | .vmadcVx vd vs2 rs1 => Sys2Proof.Machine.execVmadcVx vd vs2 rs1 s
  | .vmadcVi vd vs2 imm => Sys2Proof.Machine.execVmadcVi vd vs2 imm s
  | .vsbcVvm vd vs2 vs1 => Sys2Proof.Machine.execVsbcVvm vd vs2 vs1 s
  | .vsbcVxm vd vs2 rs1 => Sys2Proof.Machine.execVsbcVxm vd vs2 rs1 s
  | .vmsbcVvm vd vs2 vs1 => Sys2Proof.Machine.execVmsbcVvm vd vs2 vs1 s
  | .vmsbcVxm vd vs2 rs1 => Sys2Proof.Machine.execVmsbcVxm vd vs2 rs1 s
  | .vmsbcVv vd vs2 vs1 => Sys2Proof.Machine.execVmsbcVv vd vs2 vs1 s
  | .vmsbcVx vd vs2 rs1 => Sys2Proof.Machine.execVmsbcVx vd vs2 rs1 s
  | .vmandMm vd vs2 vs1 => Sys2Proof.Machine.execVmandMm vd vs2 vs1 s
  | .vle8V vd rs1 vm => Sys2Proof.Machine.execVle8V vd rs1 vm s
  | .vle16V vd rs1 vm => Sys2Proof.Machine.execVle16V vd rs1 vm s
  | .vle32V vd rs1 vm => Sys2Proof.Machine.execVle32V vd rs1 vm s
  | .vle64V vd rs1 vm => Sys2Proof.Machine.execVle64V vd rs1 vm s
  | .vlse8V vd rs1 rs2 vm => Sys2Proof.Machine.execVlse8V vd rs1 rs2 vm s
  | .vlse16V vd rs1 rs2 vm => Sys2Proof.Machine.execVlse16V vd rs1 rs2 vm s
  | .vlse32V vd rs1 rs2 vm => Sys2Proof.Machine.execVlse32V vd rs1 rs2 vm s
  | .vlse64V vd rs1 rs2 vm => Sys2Proof.Machine.execVlse64V vd rs1 rs2 vm s
  | .vluxei8V vd rs1 vs2 vm => Sys2Proof.Machine.execVluxei8V vd rs1 vs2 vm s
  | .vluxei16V vd rs1 vs2 vm => Sys2Proof.Machine.execVluxei16V vd rs1 vs2 vm s
  | .vluxei32V vd rs1 vs2 vm => Sys2Proof.Machine.execVluxei32V vd rs1 vs2 vm s
  | .vluxei64V vd rs1 vs2 vm => Sys2Proof.Machine.execVluxei64V vd rs1 vs2 vm s
  | .vloxei8V vd rs1 vs2 vm => Sys2Proof.Machine.execVloxei8V vd rs1 vs2 vm s
  | .vloxei16V vd rs1 vs2 vm => Sys2Proof.Machine.execVloxei16V vd rs1 vs2 vm s
  | .vloxei32V vd rs1 vs2 vm => Sys2Proof.Machine.execVloxei32V vd rs1 vs2 vm s
  | .vloxei64V vd rs1 vs2 vm => Sys2Proof.Machine.execVloxei64V vd rs1 vs2 vm s
  | .vle8ffV vd rs1 vm => Sys2Proof.Machine.execVle8ffV vd rs1 vm s
  | .vle16ffV vd rs1 vm => Sys2Proof.Machine.execVle16ffV vd rs1 vm s
  | .vle32ffV vd rs1 vm => Sys2Proof.Machine.execVle32ffV vd rs1 vm s
  | .vle64ffV vd rs1 vm => Sys2Proof.Machine.execVle64ffV vd rs1 vm s
  | .vlmV vd rs1 => Sys2Proof.Machine.execVlmV vd rs1 s
  | .vl1re8V vd rs1 => Sys2Proof.Machine.execVl1re8V vd rs1 s
  | .vl1re16V vd rs1 => Sys2Proof.Machine.execVl1re16V vd rs1 s
  | .vl1re32V vd rs1 => Sys2Proof.Machine.execVl1re32V vd rs1 s
  | .vl1re64V vd rs1 => Sys2Proof.Machine.execVl1re64V vd rs1 s
  | .vl2re8V vd rs1 => Sys2Proof.Machine.execVl2re8V vd rs1 s
  | .vl2re16V vd rs1 => Sys2Proof.Machine.execVl2re16V vd rs1 s
  | .vl2re32V vd rs1 => Sys2Proof.Machine.execVl2re32V vd rs1 s
  | .vl2re64V vd rs1 => Sys2Proof.Machine.execVl2re64V vd rs1 s
  | .vl4re8V vd rs1 => Sys2Proof.Machine.execVl4re8V vd rs1 s
  | .vl4re16V vd rs1 => Sys2Proof.Machine.execVl4re16V vd rs1 s
  | .vl4re32V vd rs1 => Sys2Proof.Machine.execVl4re32V vd rs1 s
  | .vl4re64V vd rs1 => Sys2Proof.Machine.execVl4re64V vd rs1 s
  | .vl8re8V vd rs1 => Sys2Proof.Machine.execVl8re8V vd rs1 s
  | .vl8re16V vd rs1 => Sys2Proof.Machine.execVl8re16V vd rs1 s
  | .vl8re32V vd rs1 => Sys2Proof.Machine.execVl8re32V vd rs1 s
  | .vl8re64V vd rs1 => Sys2Proof.Machine.execVl8re64V vd rs1 s
  | .vse8V vs3 rs1 vm => Sys2Proof.Machine.execVse8V vs3 rs1 vm s
  | .vse16V vs3 rs1 vm => Sys2Proof.Machine.execVse16V vs3 rs1 vm s
  | .vse32V vs3 rs1 vm => Sys2Proof.Machine.execVse32V vs3 rs1 vm s
  | .vse64V vs3 rs1 vm => Sys2Proof.Machine.execVse64V vs3 rs1 vm s
  | .vsse8V vs3 rs1 rs2 vm => Sys2Proof.Machine.execVsse8V vs3 rs1 rs2 vm s
  | .vsse16V vs3 rs1 rs2 vm => Sys2Proof.Machine.execVsse16V vs3 rs1 rs2 vm s
  | .vsse32V vs3 rs1 rs2 vm => Sys2Proof.Machine.execVsse32V vs3 rs1 rs2 vm s
  | .vsse64V vs3 rs1 rs2 vm => Sys2Proof.Machine.execVsse64V vs3 rs1 rs2 vm s
  | .vsuxei8V vs3 rs1 vs2 vm => Sys2Proof.Machine.execVsuxei8V vs3 rs1 vs2 vm s
  | .vsuxei16V vs3 rs1 vs2 vm => Sys2Proof.Machine.execVsuxei16V vs3 rs1 vs2 vm s
  | .vsuxei32V vs3 rs1 vs2 vm => Sys2Proof.Machine.execVsuxei32V vs3 rs1 vs2 vm s
  | .vsuxei64V vs3 rs1 vs2 vm => Sys2Proof.Machine.execVsuxei64V vs3 rs1 vs2 vm s
  | .vsoxei8V vs3 rs1 vs2 vm => Sys2Proof.Machine.execVsoxei8V vs3 rs1 vs2 vm s
  | .vsoxei16V vs3 rs1 vs2 vm => Sys2Proof.Machine.execVsoxei16V vs3 rs1 vs2 vm s
  | .vsoxei32V vs3 rs1 vs2 vm => Sys2Proof.Machine.execVsoxei32V vs3 rs1 vs2 vm s
  | .vsoxei64V vs3 rs1 vs2 vm => Sys2Proof.Machine.execVsoxei64V vs3 rs1 vs2 vm s
  | .vsmV vs3 rs1 => Sys2Proof.Machine.execVsmV vs3 rs1 s
  | .vs1rV vs3 rs1 => Sys2Proof.Machine.execVs1rV vs3 rs1 s
  | .vs2rV vs3 rs1 => Sys2Proof.Machine.execVs2rV vs3 rs1 s
  | .vs4rV vs3 rs1 => Sys2Proof.Machine.execVs4rV vs3 rs1 s
  | .vs8rV vs3 rs1 => Sys2Proof.Machine.execVs8rV vs3 rs1 s

end Sys2Proof.Machine
end

