-- ==== Sys2Proof/Machine/Step.lean ====
section
/-! DEFINITION. One step: fetch the word at `pc`, decode it, execute it (R110, R350). -/

namespace Sys2Proof.Machine

/-- Run a decoded word: an instruction of the table by its meaning; a reserved encoding raises IllegalInstruction
(R118); a word the spec gives no meaning is refused (R119). -/
def runDecoded (s : State) (w : InsnWord) : Decoded → Host.Outcome State Fault Refusal
  | .instr i => exec i s
  | .reserved => .next (s.illegal w)
  | .notInScope => .refused (.notInScope w)
  | .notVector => .refused (.notVector w)

/-- One step of the machine. -/
def step (s : State) : Host.Outcome State Fault Refusal :=
  if s.cfg.wf then
    match fetch s with
    | .stops (.raises c tval) => .next (s.takeTrap c tval)
    | .stops (.device a) => .refused (.notMainMemory a)
    | .word w => runDecoded s w (decodeWord w)
  else .fault .parametersOutOfRange

/-- The state with the instruction of those bits where the next step fetches it. -/
def State.withFetchWord (s : State) (nbits w : Nat) : State := placeWord s (tableWord nbits w)

end Sys2Proof.Machine
end

