-- ==== Sys2Proof/Safety.lean ====
section
/-! DEFINITION. The terms the claims use: what a legal state is, when an instruction may run, and what one that
completes or traps has changed. Each says in the spec's own terms what the operations of Machine/ compute. -/

namespace Sys2Proof.Machine

open Sys2Proof.Config

/-! ### Kinds of instruction -/

/-- The kinds of instruction that R24 to R76 tell apart. -/
inductive Kind where
  /-- `vsetvli`, `vsetivli`, `vsetvl` (R130). -/
  | config
  /-- The arithmetic instructions (R150). -/
  | arith
  /-- The unit-stride, strided and indexed loads (R252). -/
  | load
  /-- The fault-only-first loads (R284). -/
  | first
  /-- `vlm.v` (R289). -/
  | maskLoad
  /-- The whole-register loads (R290). -/
  | wholeLoad
  /-- The unit-stride, strided and indexed stores (R312). -/
  | store
  /-- `vsm.v` (R331). -/
  | maskStore
  /-- The whole-register stores (R332). -/
  | wholeStore
  deriving DecidableEq, Repr

/-- The kind of each instruction. -/
def kindOf : Instr → Kind
  | .vsetvli _ _ _ => .config
  | .vsetivli _ _ _ => .config
  | .vsetvl _ _ _ => .config
  | .vwadduVv _ _ _ _ => .arith
  | .vwadduVx _ _ _ _ => .arith
  | .vwaddVv _ _ _ _ => .arith
  | .vwaddVx _ _ _ _ => .arith
  | .vwsubuVv _ _ _ _ => .arith
  | .vwsubuVx _ _ _ _ => .arith
  | .vwsubVv _ _ _ _ => .arith
  | .vwsubVx _ _ _ _ => .arith
  | .vwadduWv _ _ _ _ => .arith
  | .vwadduWx _ _ _ _ => .arith
  | .vwaddWv _ _ _ _ => .arith
  | .vwaddWx _ _ _ _ => .arith
  | .vwsubuWv _ _ _ _ => .arith
  | .vwsubuWx _ _ _ _ => .arith
  | .vwsubWv _ _ _ _ => .arith
  | .vwsubWx _ _ _ _ => .arith
  | .vzextVf8 _ _ _ => .arith
  | .vsextVf8 _ _ _ => .arith
  | .vzextVf4 _ _ _ => .arith
  | .vsextVf4 _ _ _ => .arith
  | .vzextVf2 _ _ _ => .arith
  | .vsextVf2 _ _ _ => .arith
  | .vadcVvm _ _ _ => .arith
  | .vadcVxm _ _ _ => .arith
  | .vadcVim _ _ _ => .arith
  | .vmadcVvm _ _ _ => .arith
  | .vmadcVxm _ _ _ => .arith
  | .vmadcVim _ _ _ => .arith
  | .vmadcVv _ _ _ => .arith
  | .vmadcVx _ _ _ => .arith
  | .vmadcVi _ _ _ => .arith
  | .vsbcVvm _ _ _ => .arith
  | .vsbcVxm _ _ _ => .arith
  | .vmsbcVvm _ _ _ => .arith
  | .vmsbcVxm _ _ _ => .arith
  | .vmsbcVv _ _ _ => .arith
  | .vmsbcVx _ _ _ => .arith
  | .vmandMm _ _ _ => .arith
  | .vle8V _ _ _ => .load
  | .vle16V _ _ _ => .load
  | .vle32V _ _ _ => .load
  | .vle64V _ _ _ => .load
  | .vlse8V _ _ _ _ => .load
  | .vlse16V _ _ _ _ => .load
  | .vlse32V _ _ _ _ => .load
  | .vlse64V _ _ _ _ => .load
  | .vluxei8V _ _ _ _ => .load
  | .vluxei16V _ _ _ _ => .load
  | .vluxei32V _ _ _ _ => .load
  | .vluxei64V _ _ _ _ => .load
  | .vloxei8V _ _ _ _ => .load
  | .vloxei16V _ _ _ _ => .load
  | .vloxei32V _ _ _ _ => .load
  | .vloxei64V _ _ _ _ => .load
  | .vle8ffV _ _ _ => .first
  | .vle16ffV _ _ _ => .first
  | .vle32ffV _ _ _ => .first
  | .vle64ffV _ _ _ => .first
  | .vlmV _ _ => .maskLoad
  | .vl1re8V _ _ => .wholeLoad
  | .vl1re16V _ _ => .wholeLoad
  | .vl1re32V _ _ => .wholeLoad
  | .vl1re64V _ _ => .wholeLoad
  | .vl2re8V _ _ => .wholeLoad
  | .vl2re16V _ _ => .wholeLoad
  | .vl2re32V _ _ => .wholeLoad
  | .vl2re64V _ _ => .wholeLoad
  | .vl4re8V _ _ => .wholeLoad
  | .vl4re16V _ _ => .wholeLoad
  | .vl4re32V _ _ => .wholeLoad
  | .vl4re64V _ _ => .wholeLoad
  | .vl8re8V _ _ => .wholeLoad
  | .vl8re16V _ _ => .wholeLoad
  | .vl8re32V _ _ => .wholeLoad
  | .vl8re64V _ _ => .wholeLoad
  | .vse8V _ _ _ => .store
  | .vse16V _ _ _ => .store
  | .vse32V _ _ _ => .store
  | .vse64V _ _ _ => .store
  | .vsse8V _ _ _ _ => .store
  | .vsse16V _ _ _ _ => .store
  | .vsse32V _ _ _ _ => .store
  | .vsse64V _ _ _ _ => .store
  | .vsuxei8V _ _ _ _ => .store
  | .vsuxei16V _ _ _ _ => .store
  | .vsuxei32V _ _ _ _ => .store
  | .vsuxei64V _ _ _ _ => .store
  | .vsoxei8V _ _ _ _ => .store
  | .vsoxei16V _ _ _ _ => .store
  | .vsoxei32V _ _ _ _ => .store
  | .vsoxei64V _ _ _ _ => .store
  | .vsmV _ _ => .maskStore
  | .vs1rV _ _ => .wholeStore
  | .vs2rV _ _ => .wholeStore
  | .vs4rV _ _ => .wholeStore
  | .vs8rV _ _ => .wholeStore

/-- Kinds that depend on `vtype`, and so raise IllegalInstruction while `vill` is set (R32). -/
def Kind.usesVtype : Kind → Bool
  | .config | .wholeLoad | .wholeStore => false
  | .arith | .load | .first | .maskLoad | .store | .maskStore => true

/-- Kinds for which `vstart >= VLMAX` is reserved (R29). -/
def Kind.checksVstart : Kind → Bool
  | .arith | .load | .first | .store => true
  | .config | .maskLoad | .wholeLoad | .maskStore | .wholeStore => false

/-- Kinds that write memory (R61). -/
def Kind.stores : Kind → Bool
  | .store | .maskStore | .wholeStore => true
  | .config | .arith | .load | .first | .maskLoad | .wholeLoad => false

/-! ### Legal states -/

/-- `vtype` holds a setting the implementation supports (R133). -/
def State.vtypeSupported (s : State) : Prop :=
  supportsVtype s.cfg (fieldVsew s.vtype) (fieldVlmul s.vtype) = true

/-- R30 to R32: either `vill` is set, every other bit of `vtype` is zero and so is `vl`; or `vtype` holds a supported
setting, its bits XLEN-1:8 are zero, and `vl <= VLMAX`. -/
def State.vtypeLegal (s : State) : Prop :=
  (s.vill = true ∧ s.vtype = BitVec.twoPow 64 (s.cfg.xbits - 1) ∧ s.vl = 0) ∨
    (s.vill = false ∧ s.vtype.toNat < 256 ∧ s.vtypeSupported ∧ s.vlN ≤ s.vlmax)

/-- Memory is in canonical form and lies in the address space (R60); so does the set of bytes not yet synchronised. -/
structure State.memoryLegal (s : State) : Prop where
  wf : Mem.wf s.mem = true
  bounded : ∀ p ∈ s.mem, p.1 < 2 ^ s.cfg.xbits
  rising : s.unsynced.Pairwise (· < ·)
  unsyncedBounded : ∀ a ∈ s.unsynced, a < 2 ^ s.cfg.xbits

/-- Every register holds a value of its width: `v` registers VLEN bits (R23), `x` registers and `pc` XLEN bits (R20,
R22), `vstart` an index below VLEN (R26), and entry 0 of the `x` file is zero (R20). -/
structure State.registersLegal (s : State) : Prop where
  v : ∀ n j, s.cfg.vlen ≤ j → (vreg s.v n).getLsbD j = false
  x : ∀ r : Fin 32, (s.x.get r).toNat < 2 ^ s.cfg.xbits
  x0 : s.x.get 0 = 0
  pc : s.pc.toNat < 2 ^ s.cfg.xbits
  vstart : s.vstartN < s.cfg.vlen

/-- The trap registers hold XLEN-bit values (R356). -/
structure State.trapRegistersLegal (s : State) : Prop where
  mepc : s.mepc.toNat < 2 ^ s.cfg.xbits
  mcause : s.mcause.toNat < 2 ^ s.cfg.xbits
  mtval : s.mtval.toNat < 2 ^ s.cfg.xbits
  mtvec : s.mtvec.toNat < 2 ^ s.cfg.xbits
  sepc : s.sepc.toNat < 2 ^ s.cfg.xbits
  scause : s.scause.toNat < 2 ^ s.cfg.xbits
  stval : s.stval.toNat < 2 ^ s.cfg.xbits
  stvec : s.stvec.toNat < 2 ^ s.cfg.xbits

/-- The memory exceptions of one kind of access (R351). -/
def memoryCause (k : AccessKind) (c : Cause) : Prop :=
  c = misalignedCause k ∨ c = accessFaultCause k ∨ c = pageFaultCause k

/-- The parameters are those of a machine of R5 and R6, and `vl <= VLMAX` (R30). -/
structure State.sized (s : State) : Prop where
  params : s.cfg.wf
  vl : s.vlN ≤ s.vlmax

/-! ### When an instruction may run -/

/-- Checks (a), (b), (d), (e) of R153. -/
structure State.arithReady (s : State) : Prop where
  vs : s.vsEnabled = true
  vill : s.vill = false
  vstart : s.vstartN < s.vlmax
  policy : s.cfg.arithVstart = .execute ∨ s.vstartN = 0

/-- Checks (1), (2), (4) of R252 and R312. -/
structure State.memReady (s : State) : Prop where
  vs : s.vsEnabled = true
  vill : s.vill = false
  vstart : s.vstartN < s.vlmax

/-- An access that does not stop (R65, R69, R71): aligned or performed all the same, admitted, and to idempotent main
memory. -/
structure State.accessOk (s : State) (k : AccessKind) (a : XWord) (n : Nat) : Prop where
  aligned : a.toNat % n = 0 ∨ s.cfg.misaligned = .perform
  admitted : memAdmits s.cfg a.toNat n k = .ok
  mainMemory : (attrAt s.cfg a.toNat n).idempotent = true

/-- Every active element in `vstart .. body-1` has an access that does not stop (R252, R312). -/
def State.elementsOk (s : State) (k : AccessKind) (W body : Nat) (on : Nat → Bool) (addr : Nat → XWord) : Prop :=
  ∀ i, s.vstartN ≤ i → i < body → on i = true → s.accessOk k (addr i) (W / 8)

/-- The trap value of an access that the platform refuses (R69, R351): its address; for a misaligned access, which the
policy `perform` splits into bytes, the address of the first byte refused by itself, or the access's own address where
no byte is (log 23). -/
def State.refusedAt (s : State) (k : AccessKind) (a : XWord) (n : Nat) (tval : XWord) : Prop :=
  let refused := fun j : Nat => memAdmits s.cfg ((a.toNat + j) % 2 ^ s.cfg.xbits) 1 k ≠ .ok
  (a.toNat % n = 0 ∧ tval = a) ∨
    (a.toNat % n ≠ 0 ∧
      ((∃ j < n, refused j ∧ (∀ l < j, ¬ refused l) ∧ tval.toNat = (a.toNat + j) % 2 ^ s.cfg.xbits) ∨
        ((∀ j < n, ¬ refused j) ∧ tval = a)))

/-- An access that raises `c` with that trap value (R65, R69, R351). Under the policy `trap` a misaligned access raises
address-misaligned with its own address, whatever the platform answers (R360 (c), D28); any other access raises access
fault or page fault as the platform answers. -/
def State.accessRaises (s : State) (k : AccessKind) (a : XWord) (n : Nat) (c : Cause) (tval : XWord) : Prop :=
  (s.cfg.misaligned = .trap ∧ a.toNat % n ≠ 0 ∧ tval = a ∧
      c = (match k with
        | .load => .loadAddressMisaligned
        | .store => .storeAddressMisaligned
        | .fetch => .instrAddressMisaligned)) ∨
    ((s.cfg.misaligned = .perform ∨ a.toNat % n = 0) ∧ s.refusedAt k a n tval ∧
      ((memAdmits s.cfg a.toNat n k = .accessFault ∧
          c = (match k with
            | .load => .loadAccessFault
            | .store => .storeAccessFault
            | .fetch => .instrAccessFault)) ∨
        (memAdmits s.cfg a.toNat n k = .pageFault ∧
          c = (match k with
            | .load => .loadPageFault
            | .store => .storePageFault
            | .fetch => .instrPageFault))))

/-- Element `i` is the lowest-indexed active one in `vstart .. body-1` whose access raises, and it raises `c` with that
trap value (R252, D10). -/
structure State.raisesAt (s : State) (k : AccessKind) (W body : Nat) (on : Nat → Bool) (addr : Nat → XWord) (i : Nat)
    (c : Cause) (tval : XWord) : Prop where
  lower : s.vstartN ≤ i
  upper : i < body
  active : on i = true
  raises : s.accessRaises k (addr i) (W / 8) c tval
  earlier : ∀ j, s.vstartN ≤ j → j < i → on j = true → s.accessOk k (addr j) (W / 8)

/-- Element `i` is the lowest-indexed active one in `vstart .. body-1` whose access does not go ahead, and all that keeps
it from going ahead is that it falls outside idempotent main memory (R71). -/
structure State.outsideAt (s : State) (k : AccessKind) (W body : Nat) (on : Nat → Bool) (addr : Nat → XWord) (i : Nat) :
    Prop where
  lower : s.vstartN ≤ i
  upper : i < body
  active : on i = true
  aligned : (addr i).toNat % (W / 8) = 0 ∨ s.cfg.misaligned = .perform
  admitted : memAdmits s.cfg (addr i).toNat (W / 8) k = .ok
  outside : (attrAt s.cfg (addr i).toNat (W / 8)).idempotent = false
  earlier : ∀ j, s.vstartN ≤ j → j < i → on j = true → s.accessOk k (addr j) (W / 8)

/-! ### What a completed instruction has changed -/

/-- What every vector instruction that completes does and leaves alone (R22, R28, R157, R365): `vstart` is zero, the
vector state is dirty, `pc` has moved past the word, and no other control register has changed. -/
structure Completed (s t : State) : Prop where
  vstart : t.vstart = 0
  mstatus : t.mstatus = { s.mstatus with vs := .dirty }
  pc : t.pc = truncX s.cfg (s.pc + 4)
  report : t.report = none
  cfg : t.cfg = s.cfg
  vxsat : t.vxsat = s.vxsat
  vxrm : t.vxrm = s.vxrm
  priv : t.priv = s.priv
  misa : t.misa = s.misa
  mepc : t.mepc = s.mepc
  mcause : t.mcause = s.mcause
  mtval : t.mtval = s.mtval
  mtvec : t.mtvec = s.mtvec
  medeleg : t.medeleg = s.medeleg
  sepc : t.sepc = s.sepc
  scause : t.scause = s.scause
  stval : t.stval = s.stval
  stvec : t.stvec = s.stvec

/-- Every `x` register reads as before. -/
def SameX (s t : State) : Prop := ∀ r, t.readX r = s.readX r

/-- `vl` and `vtype` are as before. -/
def SameVtype (s t : State) : Prop := t.vl = s.vl ∧ t.vtype = s.vtype

/-- Every byte of memory reads as before, and the fetch sees no more and no fewer stores. -/
def SameMemory (s t : State) : Prop := (∀ a, Mem.read t.mem a = Mem.read s.mem a) ∧ t.unsynced = s.unsynced

/-- Every vector register is as before. -/
def SameVectors (s t : State) : Prop := ∀ r : RegNo, vreg t.v r.toNat = vreg s.v r.toNat

/-- An element that nothing computes (R44, R45): as before, or, when agnostic, possibly all ones. -/
def Kept (agnostic : Bool) {W : Nat} (old new : BitVec W) : Prop :=
  new = old ∨ (agnostic = true ∧ new = BitVec.allOnes W)

/-- What an instruction with a vector destination has written (R155, R252): `W`-bit elements of `vd`, the body being
`vstart .. body-1` and the tail ending before `n`; with no body, nothing. -/
structure ElemsWritten (s t : State) (vd : RegNo) (W body n : Nat) (vma vta : Bool) (on : Nat → Bool)
    (result : Nat → BitVec W) : Prop where
  prestart : ∀ i < n, i < s.vstartN → t.elem vd W i = s.elem vd W i
  active : ∀ i, s.vstartN ≤ i → i < body → on i = true → t.elem vd W i = result i
  inactive : ∀ i, s.vstartN ≤ i → i < body → on i = false → Kept vma (s.elem vd W i) (t.elem vd W i)
  tail : ∀ i < n, body ≤ i → Kept vta (s.elem vd W i) (t.elem vd W i)
  empty : body ≤ s.vstartN → SameVectors s t

/-- No vector register outside the `m` registers from `vd` has changed. -/
def OtherRegsSame (s t : State) (vd : RegNo) (m : Nat) : Prop :=
  ∀ r : RegNo, r.toNat < vd.toNat ∨ vd.toNat + m ≤ r.toNat → vreg t.v r.toNat = vreg s.v r.toNat

/-- `t` is what an arithmetic instruction with a vector destination leaves (R155, R157). -/
structure ArithDone (s t : State) (vd : RegNo) (W : Nat) (on : Nat → Bool) (result : Nat → BitVec W) : Prop where
  completed : Completed s t
  x : SameX s t
  vtype : SameVtype s t
  memory : SameMemory s t
  elems : ElemsWritten s t vd W s.vlN (s.slots W) s.vma s.vta on result
  others : OtherRegsSame s t vd (nregs (s.emul8 W))

/-- `t` is what an instruction with a mask destination leaves (R156): body bits computed, tail bits anything, only
`vd` changed. -/
structure MaskDone (s t : State) (vd : RegNo) (bit : Nat → Bool) : Prop where
  completed : Completed s t
  x : SameX s t
  vtype : SameVtype s t
  memory : SameMemory s t
  prestart : ∀ i, i < s.vstartN → t.mask vd i = s.mask vd i
  body : ∀ i, s.vstartN ≤ i → i < s.vlN → t.mask vd i = bit i
  empty : s.vlN ≤ s.vstartN → SameVectors s t
  others : OtherRegsSame s t vd 1

/-- `t` is what a load that completes leaves (R252, R289, R290): `m` registers at most have changed. -/
structure LoadDone (s t : State) (vd : RegNo) (W body n m : Nat) (vma vta : Bool) (on : Nat → Bool)
    (addr : Nat → XWord) : Prop where
  completed : Completed s t
  x : SameX s t
  vtype : SameVtype s t
  memory : SameMemory s t
  elems : ElemsWritten s t vd W body n vma vta on (fun i => loadElem s W (addr i))
  others : OtherRegsSame s t vd m

/-- `t` is what a fault-only-first load that completes leaves when it processed the elements below `limit` (R284). -/
structure FirstDone (s t : State) (vd : RegNo) (W limit : Nat) (on : Nat → Bool) (addr : Nat → XWord) : Prop where
  completed : Completed s t
  x : SameX s t
  vl : t.vlN = limit
  vtype : t.vtype = s.vtype
  memory : SameMemory s t
  prestart : ∀ i < s.slots W, i < s.vstartN → t.elem vd W i = s.elem vd W i
  active : ∀ i, s.vstartN ≤ i → i < limit → on i = true → t.elem vd W i = loadElem s W (addr i)
  inactive : ∀ i, s.vstartN ≤ i → i < limit → on i = false → Kept s.vma (s.elem vd W i) (t.elem vd W i)
  tail : ∀ i < s.slots W, limit ≤ i → (s.vlN ≤ i ∨ on i = false) → Kept s.vta (s.elem vd W i) (t.elem vd W i)
  others : OtherRegsSame s t vd (nregs (s.emul8 W))

/-- `t` is what a configuration instruction that sets `vl` and `vtype` to these leaves (R135). -/
structure ConfigDone (s t : State) (rd : RegNo) (newVl : Nat) (newVtype : XWord) : Prop where
  completed : Completed s t
  vl : t.vl = BitVec.ofNat 64 newVl
  vtype : t.vtype = newVtype
  written : rd ≠ 0#5 → t.readX rd = BitVec.ofNat 64 newVl
  others : ∀ r, r ≠ rd ∨ rd = 0#5 → t.readX r = s.readX r
  vectors : SameVectors s t
  memory : SameMemory s t

/-- Byte `a` is one that the active elements in `vstart .. body-1` accepted by `done` store to (R62, R312). -/
def StoredTo (s : State) (W body : Nat) (on : Nat → Bool) (addr : Nat → XWord) (done : Nat → Bool) (a : Nat) : Prop :=
  ∃ i, s.vstartN ≤ i ∧ i < body ∧ on i = true ∧ done i = true ∧
    ∃ k < W / 8, a = ((addr i).toNat + k) % 2 ^ s.cfg.xbits

/-- Byte `a` is written with `b` by one of those elements (R62, R72). -/
def WrittenBy (s : State) (vs3 : RegNo) (W body : Nat) (on : Nat → Bool) (addr : Nat → XWord) (done : Nat → Bool)
    (a : Nat) (b : Byte) : Prop :=
  ∃ i, s.vstartN ≤ i ∧ i < body ∧ on i = true ∧ done i = true ∧
    ∃ k < W / 8, a = ((addr i).toNat + k) % 2 ^ s.cfg.xbits ∧ b = byteOf (s.elem vs3 W i) k

/-- What a store leaves in memory (R72, R76, R312): every other byte as before, every byte stored to with the value of
one of the elements that write it, and the fetch no longer sure to see those bytes. -/
structure MemoryStored (s t : State) (vs3 : RegNo) (W body : Nat) (on : Nat → Bool) (addr : Nat → XWord)
    (done : Nat → Bool) : Prop where
  outside : ∀ a, ¬ StoredTo s W body on addr done a → Mem.read t.mem a = Mem.read s.mem a
  inside : ∀ a, StoredTo s W body on addr done a → WrittenBy s vs3 W body on addr done a (Mem.read t.mem a)
  unsynced : ∀ a, a ∈ t.unsynced ↔ a ∈ s.unsynced ∨ StoredTo s W body on addr done a

/-- `t` is what a store that completes leaves (R310, R312). -/
structure StoreDone (s t : State) (vs3 : RegNo) (W body : Nat) (on : Nat → Bool) (addr : Nat → XWord) : Prop where
  completed : Completed s t
  x : SameX s t
  vtype : SameVtype s t
  vectors : SameVectors s t
  memory : MemoryStored s t vs3 W body on addr (fun _ => true)

/-! ### What an instruction that traps has changed -/

/-- The trap itself (R350, R356): the triple is reported, and the trap is entered in machine mode or, where it is
delegated, in supervisor mode; every other control register is as before, but for `vstart` and `mstatus.VS`. -/
structure TookTrap (s t : State) (c : Cause) (tval : XWord) : Prop where
  report : t.report = some ⟨c, tval, s.pc⟩
  machine : s.delegated c = false →
    t.mepc = s.pc ∧ t.mcause = BitVec.ofNat 64 c.code ∧ t.mtval = tval ∧ t.priv = .machine ∧
      t.pc = tvecBase s.cfg s.mtvec ∧ t.sepc = s.sepc ∧ t.scause = s.scause ∧ t.stval = s.stval ∧
      t.mstatus = { s.mstatus with mpp := s.priv, mpie := s.mstatus.mie, mie := false, vs := t.mstatus.vs }
  supervisor : s.delegated c = true →
    t.sepc = s.pc ∧ t.scause = BitVec.ofNat 64 c.code ∧ t.stval = tval ∧ t.priv = .supervisor ∧
      t.pc = tvecBase s.cfg s.stvec ∧ t.mepc = s.mepc ∧ t.mcause = s.mcause ∧ t.mtval = s.mtval ∧
      t.mstatus =
        { s.mstatus with spp := decide (s.priv = .supervisor), spie := s.mstatus.sie, sie := false,
                         vs := t.mstatus.vs }
  cfg : t.cfg = s.cfg
  vxsat : t.vxsat = s.vxsat
  vxrm : t.vxrm = s.vxrm
  misa : t.misa = s.misa
  mtvec : t.mtvec = s.mtvec
  medeleg : t.medeleg = s.medeleg
  stvec : t.stvec = s.stvec
  x : SameX s t
  vtype : SameVtype s t

/-- `t` is what an IllegalInstruction leaves (R29, R352): the trap taken with the word, and nothing else changed. -/
structure IllegalDone (s t : State) (insn : InsnWord) : Prop where
  trap : TookTrap s t .illegalInstruction (insn.setWidth 64)
  vstart : t.vstart = s.vstart
  vs : t.mstatus.vs = s.mstatus.vs
  vectors : SameVectors s t
  memory : SameMemory s t

/-- `t` is what a load that traps at element `i` leaves (R253, R254, R357): `vstart` is `i`, the elements below `i` have
their final values, inactive and tail elements from `i` up are kept, and no other register has changed. -/
structure LoadTrapped (s t : State) (vd : RegNo) (W body n m : Nat) (vma vta : Bool) (on : Nat → Bool)
    (addr : Nat → XWord) (i : Nat) (c : Cause) (tval : XWord) : Prop where
  trap : TookTrap s t c tval
  vstart : t.vstart = BitVec.ofNat 64 i
  vs : t.mstatus.vs = .dirty
  memory : SameMemory s t
  prestart : ∀ j < n, j < s.vstartN → t.elem vd W j = s.elem vd W j
  loaded : ∀ j, s.vstartN ≤ j → j < i → on j = true → t.elem vd W j = loadElem s W (addr j)
  inactive : ∀ j, s.vstartN ≤ j → j < body → on j = false → Kept vma (s.elem vd W j) (t.elem vd W j)
  tail : ∀ j < n, body ≤ j → Kept vta (s.elem vd W j) (t.elem vd W j)
  others : OtherRegsSame s t vd m

/-- `t` is what a store that traps at element `i` leaves (R313, R357): `vstart` is `i`, the active elements below `i` are
stored, some of those above `i` whose own access would not stop may be, and no other register has changed. -/
structure StoreTrapped (s t : State) (vs3 : RegNo) (W body : Nat) (on : Nat → Bool) (addr : Nat → XWord) (i : Nat)
    (c : Cause) (tval : XWord) : Prop where
  trap : TookTrap s t c tval
  vstart : t.vstart = BitVec.ofNat 64 i
  vs : t.mstatus.vs = .dirty
  vectors : SameVectors s t
  memory : ∃ done : Nat → Bool,
    (∀ j, s.vstartN ≤ j → j < i → done j = true) ∧ done i = false ∧
      (∀ j, i < j → on j = true → done j = true → s.accessOk .store (addr j) (W / 8)) ∧
      MemoryStored s t vs3 W body on addr done

end Sys2Proof.Machine
end

