-- ==== Sys2Proof/Certificates/Slice0/Obligations.lean ====
section
/-! DEFINITION. The statements for the provers. Each holds for every state, and so for every implementation the
parameters of the state describe. -/

open Sys2Proof Sys2Proof.Machine Sys2Proof.Config

/-- For every instruction i, with every operand at every value of its field, decodeWord (encode i) is i: no bit of an
encoding is dropped and no two instructions share a word. (R92, R95, R96, R100, R106, R107, R108, R109, R110) -/
def Obligations.DecodeOfEncode : Prop :=
  ∀ i : Instr, decodeWord (encode i) = .instr i

/-- For every 32-bit word w and instruction i, if decodeWord w is i then encode i is w: every bit of a word in scope is
a bit of some field of its instruction. (R92, R96, R100, R106, R107, R108, R109, R110) -/
def Obligations.EncodeOfDecode : Prop :=
  ∀ (w : InsnWord) (i : Instr), decodeWord w = .instr i → encode i = w

/-- One example word of each family, written out in its rule, decodes to the instruction the rule gives it: vsetvli,
vwaddu.vv, vsext.vf4 masked, vadc.vvm, vmand.mm, vle32.v, vlse16.v, vloxei16.v, vlm.v, vl2re64.v, vse8.v masked,
vs8r.v. (R137, R172, R205, R219, R246, R258, R261, R269, R289, R298, R314, R336) -/
def Obligations.ExampleWordsDecode : Prop :=
  decodeWord 0x0D0572D7#32 = .instr (.vsetvli 5 10 0xD0) ∧
    decodeWord 0xC2432457#32 = .instr (.vwadduVv 8 4 6 true) ∧
    decodeWord 0x4842A457#32 = .instr (.vsextVf4 8 4 false) ∧
    decodeWord 0x40440257#32 = .instr (.vadcVvm 4 4 8) ∧
    decodeWord 0x661121D7#32 = .instr (.vmandMm 3 1 2) ∧
    decodeWord 0x0205E407#32 = .instr (.vle32V 8 11 true) ∧
    decodeWord 0x0AC5D407#32 = .instr (.vlse16V 8 11 12 true) ∧
    decodeWord 0x0E45D407#32 = .instr (.vloxei16V 8 11 4 true) ∧
    decodeWord 0x02B58007#32 = .instr (.vlmV 0 11) ∧
    decodeWord 0x2285F407#32 = .instr (.vl2re64V 8 11) ∧
    decodeWord 0x00058427#32 = .instr (.vse8V 8 11 false) ∧
    decodeWord 0xE2858427#32 = .instr (.vs8rV 8 11)

/-- The encodings R115 (b) to (f), R107 and R96 reserve whatever their other fields hold decode as reserved: vadc and
vsbc with vm = 1, an immediate form of vsbc or vmsbc, vmand.mm with vm = 0, a unary sub-opcode outside 00010 to
00111 and any OPMVX form of the unary group, bits 31:30 = 10 with bits 29:25 not zero of a configuration word, and
of a load or store of a vector width: mew = 1; for mop = 00 an undefined lumop or sumop, a whole-register word with
nf not 000, 001, 011 or 111, with vm = 0 or, for a store, width not 000, and a mask word with nf not 000, width not
000 or vm = 0. (The reserved encodings of R115 (a) and (g) decode to an instruction that raises IllegalInstruction:
ReservedOperandsRaiseIllegal.) (R96, R101, R103, R105, R107, R110, R115) -/
def Obligations.ReservedEncodingsDecode : Prop :=
  (∀ (vs2 vs1 vd : RegNo) (f3 : BitVec 3) (f6 : BitVec 6), f3 = 0b000#3 ∨ f3 = 0b100#3 ∨ f3 = 0b011#3 →
      f6 = 0b010000#6 ∨ f6 = 0b010010#6 → decodeWord (encOpV f6 true vs2 vs1 f3 vd) = .reserved) ∧
    (∀ (vs2 vs1 vd : RegNo) (vm : Bool) (f6 : BitVec 6), f6 = 0b010010#6 ∨ f6 = 0b010011#6 →
      decodeWord (encOpV f6 vm vs2 vs1 0b011#3 vd) = .reserved) ∧
    (∀ vs2 vs1 vd : RegNo, decodeWord (encOpV 0b011001#6 false vs2 vs1 0b010#3 vd) = .reserved) ∧
    (∀ (vs2 sub vd : RegNo) (vm : Bool), sub.toNat < 2 ∨ 7 < sub.toNat →
      decodeWord (encOpV 0b010010#6 vm vs2 sub 0b010#3 vd) = .reserved) ∧
    (∀ w : InsnWord, fOpcode w = 0b1010111#7 → fFunct3 w = 0b111#3 → w.extractLsb' 30 2 = 0b10#2 →
      w.extractLsb' 25 5 ≠ 0#5 → decodeWord w = .reserved) ∧
    (∀ w : InsnWord, fOpcode w = 0b0000111#7 ∨ fOpcode w = 0b0100111#7 → vectorWidth w = true → fMew w = true →
      decodeWord w = .reserved) ∧
    (∀ (vs2 vs1 vd : RegNo) (vm : Bool), decodeWord (encOpV 0b010010#6 vm vs2 vs1 0b110#3 vd) = .reserved) ∧
    (∀ w : InsnWord, fOpcode w = 0b0000111#7 → vectorWidth w = true → fMop w = 0b00#2 →
      (fRs2 w ≠ 0b00000#5 ∧ fRs2 w ≠ 0b01000#5 ∧ fRs2 w ≠ 0b01011#5 ∧ fRs2 w ≠ 0b10000#5) ∨
        (fRs2 w = 0b01000#5 ∧
          (fVm w = false ∨ (fNf w ≠ 0b000#3 ∧ fNf w ≠ 0b001#3 ∧ fNf w ≠ 0b011#3 ∧ fNf w ≠ 0b111#3))) ∨
        (fRs2 w = 0b01011#5 ∧ (fVm w = false ∨ fNf w ≠ 0b000#3 ∨ fFunct3 w ≠ 0b000#3)) →
      decodeWord w = .reserved) ∧
    (∀ w : InsnWord, fOpcode w = 0b0100111#7 → vectorWidth w = true → fMop w = 0b00#2 →
      (fRs2 w ≠ 0b00000#5 ∧ fRs2 w ≠ 0b01000#5 ∧ fRs2 w ≠ 0b01011#5) ∨
        (fRs2 w = 0b01000#5 ∧
          (fVm w = false ∨ fFunct3 w ≠ 0b000#3 ∨
            (fNf w ≠ 0b000#3 ∧ fNf w ≠ 0b001#3 ∧ fNf w ≠ 0b011#3 ∧ fNf w ≠ 0b111#3))) ∨
        (fRs2 w = 0b01011#5 ∧ (fVm w = false ∨ fNf w ≠ 0b000#3 ∨ fFunct3 w ≠ 0b000#3)) →
      decodeWord w = .reserved)

/-- Where pc is aligned, the fetch is admitted from idempotent memory and none of the four bytes at pc (addresses modulo
2^XLEN) was stored to since the last FENCE.I, if those bytes decode to instruction i then step s is exec i s: the
step adds nothing around exec, which itself moves pc. (R19, R22, R62, R110) -/
def Obligations.StepRunsDecodedInstruction : Prop :=
  ∀ (s : State) (i : Instr), s.cfg.wf → fetchAligned s = true → memAdmits s.cfg s.pc.toNat 4 .fetch = .ok →
    (attrAt s.cfg s.pc.toNat 4).idempotent = true → (∀ k < 4, fetchAddress s k ∉ s.unsynced) →
    decodeBytes ((List.range 4).map (fun k => Mem.read s.mem (fetchAddress s k))) = .instr i →
    step s = exec i s

/-- Under the same conditions of the fetch: a reserved word raises IllegalInstruction with the word as trap value and
changes nothing else; a word of a vector opcode that is not in the table, and a word that is no vector instruction,
are refused by name. (R110, R118, R119, R351, R352) -/
def Obligations.StepOnOtherWords : Prop :=
  ∀ s : State, s.cfg.wf → fetchAligned s = true → memAdmits s.cfg s.pc.toNat 4 .fetch = .ok →
    (attrAt s.cfg s.pc.toNat 4).idempotent = true → (∀ k < 4, fetchAddress s k ∉ s.unsynced) →
    let w := wordOfBytes (Mem.read s.mem (fetchAddress s 0)) (Mem.read s.mem (fetchAddress s 1))
      (Mem.read s.mem (fetchAddress s 2)) (Mem.read s.mem (fetchAddress s 3))
    (decodeWord w = .reserved → ∃ t, step s = .next t ∧ IllegalDone s t w) ∧
      (decodeWord w = .notInScope → step s = .refused (.notInScope w)) ∧
      (decodeWord w = .notVector → step s = .refused (.notVector w))

/-- With parameters in range: a pc that is not aligned raises instruction-address-misaligned; an aligned pc whose fetch
mem_admits answers access_fault or page_fault raises the instruction access fault or page fault. The trap is taken
with pc as trap value (the model's choice, log 26) and changes no register but the trap's own, and no memory. (R22,
R67, R69, R351) -/
def Obligations.FetchExceptions : Prop :=
  ∀ s : State, s.cfg.wf →
    (fetchAligned s = false → ∃ t, step s = .next t ∧ TookTrap s t .instrAddressMisaligned s.pc ∧
      t.vstart = s.vstart ∧ SameVectors s t ∧ SameMemory s t) ∧
    (fetchAligned s = true → memAdmits s.cfg s.pc.toNat 4 .fetch = .accessFault →
      ∃ t, step s = .next t ∧ TookTrap s t .instrAccessFault s.pc ∧
        t.vstart = s.vstart ∧ SameVectors s t ∧ SameMemory s t) ∧
    (fetchAligned s = true → memAdmits s.cfg s.pc.toNat 4 .fetch = .pageFault →
      ∃ t, step s = .next t ∧ TookTrap s t .instrPageFault s.pc ∧
        t.vstart = s.vstart ∧ SameVectors s t ∧ SameMemory s t)

/-- Every invariant of the model holds at reset: parameters in range, vtype and vl legal, memory in canonical form,
every register of its width, the trap registers of theirs, pc aligned. (R30, R31, R56, R60, R380) -/
def Obligations.ResetLegal : Prop :=
  State.reset.cfg.wf ∧ State.reset.vtypeLegal ∧ State.reset.memoryLegal ∧ State.reset.registersLegal ∧
    State.reset.trapRegistersLegal ∧ fetchAligned State.reset = true

/-- After reset vtype has vill = 1 and all other bits 0, vl is 0, vlenb reads VLEN/8, and the hart is in machine mode
with interrupts disabled. Memory lists nothing, so every byte reads zero: that clause is the model's choice (DESIGN
CHOICE, log 6), the spec giving memory no initial contents. (R56, R380, 92_eei_decisions D12) -/
def Obligations.ResetValues : Prop :=
  State.reset.vtype = BitVec.twoPow 64 (State.reset.cfg.xbits - 1) ∧ State.reset.vill = true ∧
    State.reset.vl = 0 ∧ VCsr.vlenb.value State.reset = BitVec.ofNat 64 (State.reset.cfg.vlen / 8) ∧
    State.reset.priv = .machine ∧ State.reset.mstatus.mie = false ∧ State.reset.mem = []

/-- For every state whose vtype and vl are legal (vill with all else zero, or a supported setting with vl <= VLMAX),
every next state of step is so too. (R30, R31, R32, R133, R134, R135, R284) -/
def Obligations.StepKeepsVtypeLegal : Prop :=
  ∀ s t : State, s.vtypeLegal → step s = .next t → t.vtypeLegal

/-- For every state with legal vl and vtype whose memory is in canonical form with every listed address below 2^XLEN,
and whose set of unsynchronised bytes is so too, every next state of step has such a memory and such a set. (R60,
R62, R76) -/
def Obligations.StepKeepsMemoryLegal : Prop :=
  ∀ s t : State, s.vtypeLegal → s.memoryLegal → step s = .next t → t.memoryLegal

/-- For every state with legal vl and vtype in which each v register holds VLEN bits, each x register and pc XLEN bits,
entry 0 of the x file is zero and vstart is below VLEN, every next state of step is so too; and if its mepc, mcause,
mtval, mtvec, sepc, scause, stval and stvec also hold XLEN-bit values, so do those of the next state. (R20, R22,
R23, R26, R351, R356) -/
def Obligations.StepKeepsRegistersLegal : Prop :=
  ∀ s t : State, s.vtypeLegal → s.registersLegal → step s = .next t →
    t.registersLegal ∧ (s.trapRegistersLegal → t.trapRegistersLegal)

/-- From every state with vl at most VLEN, every next state of step has a pc that is 4-byte aligned, or 2-byte aligned
where the base has the compressed extension: an instruction that completes moves an aligned pc by 4, and every trap
goes to an aligned handler (that the two low bits of mtvec and stvec are not address bits is the model's choice, log
10). (R22, R67, R356) -/
def Obligations.StepLeavesPcAligned : Prop :=
  ∀ s t : State, s.vlN ≤ s.cfg.vlen → step s = .next t → fetchAligned t = true

/-- From every state with vl at most VLEN, every next state of step has the parameters, vxsat, vxrm, misa, mtvec, stvec,
medeleg, mstatus.FS and mstatus.XS of the state before it: no instruction in scope writes them and no trap does.
(R8, R50, R51, R157, R356, R365) -/
def Obligations.StepKeepsParametersAndFixedPoint : Prop :=
  ∀ s t : State, s.vlN ≤ s.cfg.vlen → step s = .next t →
    t.cfg = s.cfg ∧ t.vxsat = s.vxsat ∧ t.vxrm = s.vxrm ∧ t.mtvec = s.mtvec ∧ t.stvec = s.stvec ∧ t.medeleg = s.medeleg ∧
      t.misa = s.misa ∧ t.mstatus.fs = s.mstatus.fs ∧ t.mstatus.xs = s.mstatus.xs

/-- For every instruction and every state with parameters in range and vl <= VLMAX, every next state of exec either is a
completion (vstart zero, vector state dirty, pc moved by 4, nothing reported, no other control register changed) or
has taken one exception, reported as the triple of cause, trap value and the pc of the instruction; the exception is
IllegalInstruction, or for a load one of the three load exceptions, or for a store one of the three store
exceptions. (R22, R28, R157, R350, R351, R356, R371) -/
def Obligations.CompletesOrTraps : Prop :=
  ∀ (i : Instr) (s t : State), s.sized → exec i s = .next t →
    Completed s t ∨
      ∃ c tval, TookTrap s t c tval ∧
        (c = .illegalInstruction ∨
          ((kindOf i = .load ∨ kindOf i = .first ∨ kindOf i = .maskLoad ∨ kindOf i = .wholeLoad) ∧
            memoryCause .load c) ∨
          ((kindOf i).stores = true ∧ memoryCause .store c))

/-- For every instruction, every state with parameters in range and vl <= VLMAX and every next state: unless the
instruction is a configuration instruction vtype is as before; unless it is that or a fault-only-first load vl is as
before; after a fault-only-first load vl is at most what it was. (R30, R31, 90_conflicts C5) -/
def Obligations.WhoWritesVlAndVtype : Prop :=
  ∀ (i : Instr) (s t : State), s.sized → exec i s = .next t →
    (kindOf i ≠ .config → t.vtype = s.vtype) ∧
      (kindOf i ≠ .config → kindOf i ≠ .first → t.vl = s.vl) ∧ (kindOf i = .first → t.vlN ≤ s.vlN)

/-- For every instruction that is not a configuration instruction every x register reads as before in every next state;
a configuration instruction leaves every x register but rd as before, and x0 always reads zero. (R20, R55, R135,
R157) -/
def Obligations.WhoWritesScalars : Prop :=
  (∀ (i : Instr) (s t : State), s.sized → exec i s = .next t → kindOf i ≠ .config → SameX s t) ∧
    (∀ (rd rs1 : RegNo) (zimm : BitVec 11) (s t : State), exec (.vsetvli rd rs1 zimm) s = .next t →
      ∀ r, r ≠ rd ∨ rd = 0#5 → t.readX r = s.readX r) ∧
    (∀ (rd uimm : RegNo) (zimm : BitVec 10) (s t : State), exec (.vsetivli rd uimm zimm) s = .next t →
      ∀ r, r ≠ rd ∨ rd = 0#5 → t.readX r = s.readX r) ∧
    (∀ (rd rs1 rs2 : RegNo) (s t : State), exec (.vsetvl rd rs1 rs2) s = .next t →
      ∀ r, r ≠ rd ∨ rd = 0#5 → t.readX r = s.readX r) ∧ ∀ s : State, s.readX 0#5 = 0

/-- For every state with parameters in range and vl <= VLMAX and every next state: of every instruction that is no
store, every byte of memory reads as before and the set of bytes the fetch may not see is as before; of every store
and every configuration instruction, every vector register is as before; whether the instruction completes or traps.
(R61, R135, R310, R313) -/
def Obligations.WhoWritesMemoryAndVectors : Prop :=
  ∀ (i : Instr) (s t : State), s.sized → exec i s = .next t →
    ((kindOf i).stores = false → SameMemory s t) ∧
      ((kindOf i).stores = true ∨ kindOf i = .config → SameVectors s t)

/-- For every instruction, every state with parameters in range and vl <= VLMAX and every next state that reports an
IllegalInstruction: the trap value is the instruction word, the trap is entered, and no vector register, no byte of
memory, no x register, not vl, vtype or vstart has changed. (R29, R118, R351, R352) -/
def Obligations.IllegalInstructionChangesNothing : Prop :=
  ∀ (i : Instr) (s t : State) (tval epc : XWord), s.sized → exec i s = .next t →
    t.report = some ⟨.illegalInstruction, tval, epc⟩ → tval = (encode i).setWidth 64 ∧ epc = s.pc ∧ IllegalDone s t (encode i)

/-- For every instruction and every state with mstatus.VS Off, exec answers the state after an IllegalInstruction with
the instruction word, in which nothing else has changed; and every read or write of a vector CSR is an illegal
instruction too. (R25, R352, R365) -/
def Obligations.VectorUnitOffRaisesIllegal : Prop :=
  (∀ (i : Instr) (s : State), s.mstatus.vs = .off → ∃ t, exec i s = .next t ∧ IllegalDone s t (encode i)) ∧
    ∀ (k : VCsr) (a : XWord) (s : State), s.mstatus.vs = .off →
      readCsr k s = .error .illegalInstruction ∧ writeCsr k a s = .error .illegalInstruction

/-- For every instruction but the configuration instructions and the whole-register loads and stores, and every state
with vill = 1, exec answers the state after an IllegalInstruction, in which nothing else has changed. (R32, R352) -/
def Obligations.VillRaisesIllegal : Prop :=
  ∀ (i : Instr) (s : State), s.vill = true → (kindOf i).usesVtype = true →
    ∃ t, exec i s = .next t ∧ IllegalDone s t (encode i)

/-- For every arithmetic instruction and every unit-stride, strided, indexed or fault-only-first load or store, and
every state with vstart >= VLMAX, exec answers the state after an IllegalInstruction, in which not even vstart has
changed. (R29, R153, R252, R312) -/
def Obligations.VstartTooLargeRaisesIllegal : Prop :=
  ∀ (i : Instr) (s : State), s.vlmax ≤ s.vstartN → (kindOf i).checksVstart = true →
    ∃ t, exec i s = .next t ∧ IllegalDone s t (encode i)

/-- For every arithmetic instruction and every state whose arith_vstart_policy is trap_nonzero and whose vstart is not
zero, exec answers the state after an IllegalInstruction. (R153, R158, R352) -/
def Obligations.ArithVstartPolicy : Prop :=
  ∀ (i : Instr) (s : State), s.cfg.arithVstart = .trapNonzero → s.vstartN ≠ 0 → kindOf i = .arith →
    ∃ t, exec i s = .next t ∧ IllegalDone s t (encode i)

/-- For every instruction governed by vtype and vl and every state with vl <= vstart, exec answers a next state: either
the completion that changes no vector register, no x register, neither vl nor vtype and no byte of memory, or an
IllegalInstruction. (R43) -/
def Obligations.EmptyBodyWritesNothing : Prop :=
  ∀ (i : Instr) (s : State), s.vlN ≤ s.vstartN → (kindOf i).checksVstart = true →
    ∃ t, exec i s = .next t ∧
      ((Completed s t ∧ SameVectors s t ∧ SameX s t ∧ SameVtype s t ∧ SameMemory s t) ∨ IllegalDone s t (encode i))

/-- Taking an exception c with trap value tval: not delegated, mepc is the pc of the instruction, mcause the code of c,
mtval tval, MPP the mode before, MPIE the old MIE, MIE 0, the mode machine mode, pc the base of mtvec; delegated,
the s registers in the same way and the base of stvec. The triple is reported, and no x register, vector register,
vector CSR or byte of memory changes. The codes are 2 for IllegalInstruction, 4, 5 and 13 for the load and 6, 7 and
15 for the store exceptions. That a trap from machine mode is never delegated, and that the base is the vector
register with its two low bits cleared, are the model's (logs 9, 10). (R350, R351, R356, R362) -/
def Obligations.TrapEntryRegisters : Prop :=
  ∀ (s : State) (c : Cause) (tval : XWord),
    let t := s.takeTrap c tval
    (s.priv = .machine ∨ s.medeleg.getLsbD c.code = false →
      t.mepc = s.pc ∧ t.mcause = BitVec.ofNat 64 c.code ∧ t.mtval = tval ∧ t.priv = .machine ∧
        t.mstatus.mpp = s.priv ∧ t.mstatus.mpie = s.mstatus.mie ∧ t.mstatus.mie = false ∧
        t.mstatus.vs = s.mstatus.vs ∧ t.pc = truncX s.cfg (s.mtvec &&& ~~~3#64)) ∧
    (s.priv ≠ .machine → s.medeleg.getLsbD c.code = true →
      t.sepc = s.pc ∧ t.scause = BitVec.ofNat 64 c.code ∧ t.stval = tval ∧ t.priv = .supervisor ∧
        t.mstatus.spp = decide (s.priv = .supervisor) ∧ t.mstatus.spie = s.mstatus.sie ∧ t.mstatus.sie = false ∧
        t.mstatus.vs = s.mstatus.vs ∧ t.pc = truncX s.cfg (s.stvec &&& ~~~3#64) ∧
        t.mepc = s.mepc ∧ t.mcause = s.mcause ∧ t.mtval = s.mtval) ∧
    t.report = some ⟨c, tval, s.pc⟩ ∧ t.x = s.x ∧ t.v = s.v ∧ t.vstart = s.vstart ∧ t.vl = s.vl ∧
      t.vtype = s.vtype ∧ t.vxsat = s.vxsat ∧ t.vxrm = s.vxrm ∧ t.mem = s.mem ∧
      Cause.illegalInstruction.code = 2 ∧ Cause.loadAddressMisaligned.code = 4 ∧ Cause.loadAccessFault.code = 5 ∧
      Cause.storeAddressMisaligned.code = 6 ∧ Cause.storeAccessFault.code = 7 ∧ Cause.loadPageFault.code = 13 ∧
      Cause.storePageFault.code = 15

/-- After an exception that is not delegated is taken and MRET's restore follows, pc, the mode and MIE are what they
were, and vector state (the v registers, vstart, vl, vtype, vxsat, vxrm and mstatus.VS), x registers and memory are
untouched; after a delegated one, SRET's restore does the same with SIE. (What MRET and SRET leave in MPIE, MPP,
SPIE and SPP is the model's choice, log 11.) (R356, R361) -/
def Obligations.TrapReturnRestores : Prop :=
  ∀ (s : State) (c : Cause) (tval : XWord), s.pc.toNat < 2 ^ s.cfg.xbits →
    (s.delegated c = false →
      let t := trapReturnM (s.takeTrap c tval)
      t.pc = s.pc ∧ t.priv = s.priv ∧ t.mstatus.mie = s.mstatus.mie ∧ t.mstatus.vs = s.mstatus.vs ∧ t.v = s.v ∧
        t.vstart = s.vstart ∧ t.vl = s.vl ∧ t.vtype = s.vtype ∧ t.vxsat = s.vxsat ∧ t.vxrm = s.vxrm ∧
        t.x = s.x ∧ t.mem = s.mem) ∧
    (s.delegated c = true →
      let t := trapReturnS (s.takeTrap c tval)
      t.pc = s.pc ∧ t.priv = s.priv ∧ t.mstatus.sie = s.mstatus.sie ∧ t.mstatus.vs = s.mstatus.vs ∧ t.v = s.v ∧
        t.vstart = s.vstart ∧ t.vl = s.vl ∧ t.vtype = s.vtype ∧ t.vxsat = s.vxsat ∧ t.vxrm = s.vxrm ∧
        t.x = s.x ∧ t.mem = s.mem)

/-- While the vector unit is on every read of vlenb returns VLEN/8; no CSR write of any vector CSR and no next state of
an instruction changes what it reads; a CSR write of vlenb itself is an illegal instruction. (R49) -/
def Obligations.VlenbReadsVlenOverEight : Prop :=
  ∀ s : State, s.vsEnabled = true →
    readCsr .vlenb s = .ok (BitVec.ofNat 64 (s.cfg.vlen / 8)) ∧
      (∀ a, writeCsr .vlenb a s = .error .illegalInstruction) ∧
      (∀ k a t, writeCsr k a s = .ok t → VCsr.vlenb.value t = VCsr.vlenb.value s) ∧
      ∀ i t, s.sized → exec i s = .next t → VCsr.vlenb.value t = VCsr.vlenb.value s

/-- While the vector unit is on: bits 2:1 of a read of vcsr are vxrm, bit 0 is vxsat, every other bit reads zero; a
write of a to vcsr succeeds, writes a[2:1] to vxrm and a[0] to vxsat, and changes no other vector CSR. (R52) -/
def Obligations.VcsrMirrors : Prop :=
  ∀ (s : State) (a : XWord), s.vsEnabled = true →
    (∃ r, readCsr .vcsr s = .ok r ∧ r.extractLsb' 1 2 = s.vxrm ∧ r.extractLsb' 0 1 = s.vxsat ∧
      ∀ j, 3 ≤ j → r.getLsbD j = false) ∧
    ∃ t, writeCsr .vcsr a s = .ok t ∧ t.vxrm = a.extractLsb' 1 2 ∧ t.vxsat = a.extractLsb' 0 1 ∧
      t.vstart = s.vstart ∧ t.vl = s.vl ∧ t.vtype = s.vtype

/-- While the vector unit is on: vstart, vl and vtype read as held, vxsat and vxrm read zero-extended; a write of vl,
vtype or vlenb is an illegal instruction; a write of vstart keeps its low log2(VLEN) bits, of vxsat bit 0, of vxrm
bits 1:0; every write that succeeds marks the vector state dirty, which sets mstatus.SD, and changes no x register,
no vector register, no memory, vl or vtype. A write of a two-bit code to mstatus.VS stores the status of that code
(0 Off, 1 Initial, 2 Clean, 3 Dirty), and the vector unit is then on exactly when the code is not 0. (That SD is set
while VS, FS or XS is Dirty is the model's reading of "summarises", PRESUMED, log 42.) (R24, R25, R26, R50, R51,
R365, 92_eei_decisions D27) -/
def Obligations.CsrAccess : Prop :=
  (∀ (s : State) (a : XWord), s.vsEnabled = true →
    readCsr .vstart s = .ok s.vstart ∧ readCsr .vl s = .ok s.vl ∧ readCsr .vtype s = .ok s.vtype ∧
      readCsr .vxsat s = .ok (s.vxsat.setWidth 64) ∧ readCsr .vxrm s = .ok (s.vxrm.setWidth 64) ∧
      writeCsr .vl a s = .error .illegalInstruction ∧ writeCsr .vtype a s = .error .illegalInstruction ∧
      writeCsr .vlenb a s = .error .illegalInstruction ∧
      (∃ t, writeCsr .vstart a s = .ok t ∧ (s.cfg.wf → t.vstartN = a.toNat % s.cfg.vlen)) ∧
      (∃ t, writeCsr .vxsat a s = .ok t ∧ t.vxsat = a.extractLsb' 0 1 ∧ t.vxrm = s.vxrm ∧ t.vstart = s.vstart) ∧
      (∃ t, writeCsr .vxrm a s = .ok t ∧ t.vxrm = a.extractLsb' 0 2 ∧ t.vxsat = s.vxsat ∧ t.vstart = s.vstart) ∧
      ∀ k t, writeCsr k a s = .ok t → t.mstatus.vs = .dirty ∧ t.mstatus.sd = true ∧ t.x = s.x ∧ t.v = s.v ∧
        t.mem = s.mem ∧ t.vl = s.vl ∧ t.vtype = s.vtype) ∧
    ∀ (s : State) (b : BitVec 2), (s.writeVs b).mstatus.vs.code = b ∧ (s.writeVs b).vsEnabled = decide (b ≠ 0b00#2) ∧
      VsStatus.off.code = 0b00#2 ∧ VsStatus.initial.code = 0b01#2 ∧ VsStatus.clean.code = 0b10#2 ∧
      VsStatus.dirty.code = 0b11#2

/-- After FENCE.I every byte the fetch sees is the byte in memory, and nothing but the set of bytes the fetch may not
see has changed, which is then empty; no instruction takes an address out of that set. The set, and FENCE.I as an
operation that empties it, are the model's (log 20, DEDUCED from R76; log 33, DESIGN CHOICE): R76 says only that
before a FENCE.I a fetch is not guaranteed to see a store. (R76) -/
def Obligations.FenceLetsFetchSeeStores : Prop :=
  (∀ (s : State) (a : Nat), fetchByte (fenceI s) a = Mem.read s.mem a ∧ fenceI s = { s with unsynced := [] }) ∧
    ∀ (i : Instr) (s t : State) (a : Nat), s.sized → exec i s = .next t → a ∈ s.unsynced → a ∈ t.unsynced

/-- vsetvli with the vector unit on, parameters in range and a supported setting in zimm completes: vtype is zimm zero-
extended, vl is the implementation's choice for the AVL and the new VLMAX, and x[rd] is that vl. The AVL is x[rs1]
when rs1 is not x0, 2^XLEN - 1 when rs1 is x0 and rd is not, and the old vl when both are x0, vill was 0 and VLMAX
does not change. Nothing else changes. (R131, R132, R135, R137, R141) -/
def Obligations.VsetvliResult : Prop :=
  ∀ (s : State) (rd rs1 : RegNo) (zimm : BitVec 11) (avl : Nat), s.cfg.wf → s.vsEnabled = true →
    let cand : XWord := zimm.setWidth 64
    let newVlmax := vlmaxOf s.cfg (fieldVsew cand) (fieldVlmul cand)
    cand.toNat < 256 → supportsVtype s.cfg (fieldVsew cand) (fieldVlmul cand) = true →
    (rs1 ≠ 0#5 ∧ avl = (s.readX rs1).toNat) ∨ (rs1 = 0#5 ∧ rd ≠ 0#5 ∧ avl = 2 ^ s.cfg.xbits - 1) ∨
      (rs1 = 0#5 ∧ rd = 0#5 ∧ s.vill = false ∧ newVlmax = s.vlmax ∧ avl = s.vlN) →
    ∃ t, exec (.vsetvli rd rs1 zimm) s = .next t ∧ ConfigDone s t rd (chooseVl s.cfg avl newVlmax) cand

/-- vsetvl with the vector unit on, parameters in range and a supported setting in x[rs2] completes: vtype is x[rs2], vl
is the implementation's choice for the AVL and the new VLMAX, and x[rd] is that vl, the AVL being chosen by rs1 and
rd as for vsetvli. Nothing else changes. (R131, R132, R135, R139, R141) -/
def Obligations.VsetvlResult : Prop :=
  ∀ (s : State) (rd rs1 rs2 : RegNo) (avl : Nat), s.cfg.wf → s.vsEnabled = true →
    let cand := s.readX rs2
    let newVlmax := vlmaxOf s.cfg (fieldVsew cand) (fieldVlmul cand)
    cand.toNat < 256 → supportsVtype s.cfg (fieldVsew cand) (fieldVlmul cand) = true →
    (rs1 ≠ 0#5 ∧ avl = (s.readX rs1).toNat) ∨ (rs1 = 0#5 ∧ rd ≠ 0#5 ∧ avl = 2 ^ s.cfg.xbits - 1) ∨
      (rs1 = 0#5 ∧ rd = 0#5 ∧ s.vill = false ∧ newVlmax = s.vlmax ∧ avl = s.vlN) →
    ∃ t, exec (.vsetvl rd rs1 rs2) s = .next t ∧ ConfigDone s t rd (chooseVl s.cfg avl newVlmax) cand

/-- vsetivli with the vector unit on, parameters in range and a supported setting in zimm completes: vtype is zimm zero-
extended, vl is the implementation's choice for the AVL uimm and the new VLMAX, and x[rd] is that vl, whatever rd
and uimm are. Nothing else changes. (R131, R132, R135, R138, R141) -/
def Obligations.VsetivliResult : Prop :=
  ∀ (s : State) (rd uimm : RegNo) (zimm : BitVec 10), s.cfg.wf → s.vsEnabled = true →
    let cand : XWord := zimm.setWidth 64
    cand.toNat < 256 → supportsVtype s.cfg (fieldVsew cand) (fieldVlmul cand) = true →
    ∃ t, exec (.vsetivli rd uimm zimm) s = .next t ∧
      ConfigDone s t rd (chooseVl s.cfg uimm.toNat (vlmaxOf s.cfg (fieldVsew cand) (fieldVlmul cand))) cand

/-- With the vector unit on, a candidate with a bit above bit 7 set or an unsupported setting, and for vsetvli and
vsetvl also the form rs1 = rd = x0 when vill was 1 or VLMAX would change, makes the instruction complete with vill =
1, every other bit of vtype 0, vl 0 and x[rd] 0. (R32, R116, R133, R135, R136, R140) -/
def Obligations.UnsupportedSettingSetsVill : Prop :=
  ∀ s : State, s.vsEnabled = true →
    let bad := fun cand : XWord =>
      256 ≤ cand.toNat ∨ supportsVtype s.cfg (fieldVsew cand) (fieldVlmul cand) = false
    let keeps := fun (rd rs1 : RegNo) (cand : XWord) =>
      rs1 = 0#5 ∧ rd = 0#5 ∧ (s.vill = true ∨ vlmaxOf s.cfg (fieldVsew cand) (fieldVlmul cand) ≠ s.vlmax)
    let vill : XWord := BitVec.twoPow 64 (s.cfg.xbits - 1)
    (∀ (rd rs1 : RegNo) (zimm : BitVec 11), bad (zimm.setWidth 64) ∨ keeps rd rs1 (zimm.setWidth 64) →
      ∃ t, exec (.vsetvli rd rs1 zimm) s = .next t ∧ ConfigDone s t rd 0 vill) ∧
    (∀ (rd rs1 rs2 : RegNo), bad (s.readX rs2) ∨ keeps rd rs1 (s.readX rs2) →
      ∃ t, exec (.vsetvl rd rs1 rs2) s = .next t ∧ ConfigDone s t rd 0 vill) ∧
    (∀ (rd uimm : RegNo) (zimm : BitVec 10), bad (zimm.setWidth 64) →
      ∃ t, exec (.vsetivli rd uimm zimm) s = .next t ∧ ConfigDone s t rd 0 vill)

/-- For every parameter set, AVL and VLMAX at least 1, whichever vl_policy: vl is AVL when AVL <= VLMAX; ceil(AVL/2) <=
vl <= VLMAX when VLMAX < AVL < 2*VLMAX; vl is VLMAX when AVL >= 2*VLMAX; hence vl is 0 exactly when AVL is 0, vl <=
VLMAX, vl <= AVL, and giving vl back as AVL gives the same vl. The choice is a function of the parameters, AVL and
VLMAX; under the default policy it is min(AVL, VLMAX). (R134) -/
def Obligations.ChosenVlMeetsConstraints : Prop :=
  ∀ (c : Params) (avl vlmax : Nat), 1 ≤ vlmax →
    let vl := chooseVl c avl vlmax
    (avl ≤ vlmax → vl = avl) ∧ (vlmax < avl → avl < 2 * vlmax → (avl + 1) / 2 ≤ vl ∧ vl ≤ vlmax) ∧
      (2 * vlmax ≤ avl → vl = vlmax) ∧ (vl = 0 ↔ avl = 0) ∧ vl ≤ vlmax ∧ vl ≤ avl ∧ chooseVl c vl vlmax = vl ∧
      (c.vlPolicy = .minimum → vl = min avl vlmax)

/-- For every parameter set in range that supports no setting beyond the required ones, a setting is supported exactly
when vsew <= 3, vlmul is not 100, SEW <= ELEN, and either vlmul is not negative as a signed number or SEW <= ELEN >>
(-vlmul). (R133, 92_eei_decisions D14) -/
def Obligations.DefaultSupportedSettings : Prop :=
  ∀ (c : Params) (vsew vlmul : BitVec 3), c.wf → c.extraVtypes = [] →
    (supportsVtype c vsew vlmul = true ↔
      vsew.toNat ≤ 3 ∧ vlmul ≠ 0b100#3 ∧ 8 <<< vsew.toNat ≤ c.elen ∧
        (0 ≤ vlmul.toInt ∨ 8 <<< vsew.toNat ≤ c.elen >>> (-vlmul.toInt).toNat))

/-- For every parameter set in range and every supported setting, VLMAX times SEW is LMUL times VLEN with no rounding
(LMUL counted in eighths), VLMAX is at least 1 and at most VLEN, SEW is 8 shifted left by vsew, and LMUL is 2 to the
signed vlmul. That VLMAX is at least 1 for the settings beyond the required ones is the model's reading (DEDUCED,
log 30). (R9, R30, R33, R34, R35, R37, R133) -/
def Obligations.VlmaxIsExact : Prop :=
  ∀ (c : Params) (vsew vlmul : BitVec 3), c.wf → supportsVtype c vsew vlmul = true →
    vlmaxOf c vsew vlmul * (8 * sewOf vsew) = lmul8Of vlmul * c.vlen ∧ 1 ≤ vlmaxOf c vsew vlmul ∧
      vlmaxOf c vsew vlmul ≤ c.vlen ∧ sewOf vsew = 8 <<< vsew.toNat ∧
      (lmul8Of vlmul : ℤ) = 2 ^ (3 + vlmul.toInt).toNat

/-- The widening add and subtract of two SEW-wide vector operands, where every check of R153 passes and the operands are
not reserved by R169, complete: each active element of vd is the sum or difference at 2*SEW bits of the operands,
the SEW-wide ones zero-extended (vwaddu, vwsubu) or sign-extended (vwadd, vwsub) first; inactive and tail elements
follow vma and vta; with vstart >= vl nothing is written; no other register, no byte of memory and no control
register but vstart, VS and pc changes. (R28, R43, R155, R157, R169, R170, R172, R174, R176, R178) -/
def Obligations.WideningVvResult : Prop :=
  ∀ (s : State) (vd vs2 vs1 : RegNo) (vm : Bool), s.sized → s.arithReady →
    groupOk s.cfg vd (2 * s.lmul8) (2 * s.sew) = true → (vm = true ∨ vd ≠ 0#5) →
    groupOk s.cfg vs2 s.lmul8 s.sew = true → overlapOk vd (2 * s.sew) (2 * s.lmul8) vs2 s.sew s.lmul8 = true →
    groupOk s.cfg vs1 s.lmul8 s.sew = true → overlapOk vd (2 * s.sew) (2 * s.lmul8) vs1 s.sew s.lmul8 = true →
    (∃ t, exec (.vwadduVv vd vs2 vs1 vm) s = .next t ∧
      ArithDone s t vd (2 * s.sew) (s.maskOn vm)
        (fun i => (s.elem vs2 s.sew i).setWidth (2 * s.sew) + (s.elem vs1 s.sew i).setWidth (2 * s.sew))) ∧
    (∃ t, exec (.vwaddVv vd vs2 vs1 vm) s = .next t ∧
      ArithDone s t vd (2 * s.sew) (s.maskOn vm)
        (fun i => (s.elem vs2 s.sew i).signExtend (2 * s.sew) + (s.elem vs1 s.sew i).signExtend (2 * s.sew))) ∧
    (∃ t, exec (.vwsubuVv vd vs2 vs1 vm) s = .next t ∧
      ArithDone s t vd (2 * s.sew) (s.maskOn vm)
        (fun i => (s.elem vs2 s.sew i).setWidth (2 * s.sew) - (s.elem vs1 s.sew i).setWidth (2 * s.sew))) ∧
    (∃ t, exec (.vwsubVv vd vs2 vs1 vm) s = .next t ∧
      ArithDone s t vd (2 * s.sew) (s.maskOn vm)
        (fun i => (s.elem vs2 s.sew i).signExtend (2 * s.sew) - (s.elem vs1 s.sew i).signExtend (2 * s.sew)))

/-- The widening add and subtract of a SEW-wide vector and a scalar operand, where every check of R153 passes and the
operands are not reserved by R169, complete: each active element of vd is the sum or difference at 2*SEW bits of the
operands, the SEW-wide ones zero-extended (vwaddu, vwsubu) or sign-extended (vwadd, vwsub) first; inactive and tail
elements follow vma and vta; with vstart >= vl nothing is written; no other register, no byte of memory and no
control register but vstart, VS and pc changes. (R28, R43, R155, R157, R169, R170, R173, R175, R177, R179) -/
def Obligations.WideningVxResult : Prop :=
  ∀ (s : State) (vd vs2 rs1 : RegNo) (vm : Bool), s.sized → s.arithReady →
    groupOk s.cfg vd (2 * s.lmul8) (2 * s.sew) = true → (vm = true ∨ vd ≠ 0#5) →
    groupOk s.cfg vs2 s.lmul8 s.sew = true → overlapOk vd (2 * s.sew) (2 * s.lmul8) vs2 s.sew s.lmul8 = true →
    (∃ t, exec (.vwadduVx vd vs2 rs1 vm) s = .next t ∧
      ArithDone s t vd (2 * s.sew) (s.maskOn vm)
        (fun i => (s.elem vs2 s.sew i).setWidth (2 * s.sew) + (scalarOp s rs1 s.sew).setWidth (2 * s.sew))) ∧
    (∃ t, exec (.vwaddVx vd vs2 rs1 vm) s = .next t ∧
      ArithDone s t vd (2 * s.sew) (s.maskOn vm)
        (fun i => (s.elem vs2 s.sew i).signExtend (2 * s.sew) + (scalarOp s rs1 s.sew).signExtend (2 * s.sew))) ∧
    (∃ t, exec (.vwsubuVx vd vs2 rs1 vm) s = .next t ∧
      ArithDone s t vd (2 * s.sew) (s.maskOn vm)
        (fun i => (s.elem vs2 s.sew i).setWidth (2 * s.sew) - (scalarOp s rs1 s.sew).setWidth (2 * s.sew))) ∧
    (∃ t, exec (.vwsubVx vd vs2 rs1 vm) s = .next t ∧
      ArithDone s t vd (2 * s.sew) (s.maskOn vm)
        (fun i => (s.elem vs2 s.sew i).signExtend (2 * s.sew) - (scalarOp s rs1 s.sew).signExtend (2 * s.sew)))

/-- The widening add and subtract of a 2*SEW-wide and a SEW-wide vector operand, where every check of R153 passes and
the operands are not reserved by R169, complete: each active element of vd is the sum or difference at 2*SEW bits of
the operands, the SEW-wide ones zero-extended (vwaddu, vwsubu) or sign-extended (vwadd, vwsub) first; inactive and
tail elements follow vma and vta; with vstart >= vl nothing is written; no other register, no byte of memory and no
control register but vstart, VS and pc changes. (R28, R43, R155, R157, R169, R170, R180, R182, R184, R186) -/
def Obligations.WideningWvResult : Prop :=
  ∀ (s : State) (vd vs2 vs1 : RegNo) (vm : Bool), s.sized → s.arithReady →
    groupOk s.cfg vd (2 * s.lmul8) (2 * s.sew) = true → (vm = true ∨ vd ≠ 0#5) →
    groupOk s.cfg vs2 (2 * s.lmul8) (2 * s.sew) = true →
    groupOk s.cfg vs1 s.lmul8 s.sew = true → overlapOk vd (2 * s.sew) (2 * s.lmul8) vs1 s.sew s.lmul8 = true →
    (∃ t, exec (.vwadduWv vd vs2 vs1 vm) s = .next t ∧
      ArithDone s t vd (2 * s.sew) (s.maskOn vm)
        (fun i => s.elem vs2 (2 * s.sew) i + (s.elem vs1 s.sew i).setWidth (2 * s.sew))) ∧
    (∃ t, exec (.vwaddWv vd vs2 vs1 vm) s = .next t ∧
      ArithDone s t vd (2 * s.sew) (s.maskOn vm)
        (fun i => s.elem vs2 (2 * s.sew) i + (s.elem vs1 s.sew i).signExtend (2 * s.sew))) ∧
    (∃ t, exec (.vwsubuWv vd vs2 vs1 vm) s = .next t ∧
      ArithDone s t vd (2 * s.sew) (s.maskOn vm)
        (fun i => s.elem vs2 (2 * s.sew) i - (s.elem vs1 s.sew i).setWidth (2 * s.sew))) ∧
    (∃ t, exec (.vwsubWv vd vs2 vs1 vm) s = .next t ∧
      ArithDone s t vd (2 * s.sew) (s.maskOn vm)
        (fun i => s.elem vs2 (2 * s.sew) i - (s.elem vs1 s.sew i).signExtend (2 * s.sew)))

/-- The widening add and subtract of a 2*SEW-wide vector and a scalar operand, where every check of R153 passes and the
operands are not reserved by R169, complete: each active element of vd is the sum or difference at 2*SEW bits of the
operands, the SEW-wide ones zero-extended (vwaddu, vwsubu) or sign-extended (vwadd, vwsub) first; inactive and tail
elements follow vma and vta; with vstart >= vl nothing is written; no other register, no byte of memory and no
control register but vstart, VS and pc changes. (R28, R43, R155, R157, R169, R170, R181, R183, R185, R187) -/
def Obligations.WideningWxResult : Prop :=
  ∀ (s : State) (vd vs2 rs1 : RegNo) (vm : Bool), s.sized → s.arithReady →
    groupOk s.cfg vd (2 * s.lmul8) (2 * s.sew) = true → (vm = true ∨ vd ≠ 0#5) →
    groupOk s.cfg vs2 (2 * s.lmul8) (2 * s.sew) = true →
    (∃ t, exec (.vwadduWx vd vs2 rs1 vm) s = .next t ∧
      ArithDone s t vd (2 * s.sew) (s.maskOn vm)
        (fun i => s.elem vs2 (2 * s.sew) i + (scalarOp s rs1 s.sew).setWidth (2 * s.sew))) ∧
    (∃ t, exec (.vwaddWx vd vs2 rs1 vm) s = .next t ∧
      ArithDone s t vd (2 * s.sew) (s.maskOn vm)
        (fun i => s.elem vs2 (2 * s.sew) i + (scalarOp s rs1 s.sew).signExtend (2 * s.sew))) ∧
    (∃ t, exec (.vwsubuWx vd vs2 rs1 vm) s = .next t ∧
      ArithDone s t vd (2 * s.sew) (s.maskOn vm)
        (fun i => s.elem vs2 (2 * s.sew) i - (scalarOp s rs1 s.sew).setWidth (2 * s.sew))) ∧
    (∃ t, exec (.vwsubWx vd vs2 rs1 vm) s = .next t ∧
      ArithDone s t vd (2 * s.sew) (s.maskOn vm)
        (fun i => s.elem vs2 (2 * s.sew) i - (scalarOp s rs1 s.sew).signExtend (2 * s.sew)))

/-- The integer extensions, where every check of R153 passes and the operands are not reserved by R201, complete: each
active element i of vd is element i of vs2, of width SEW/8, SEW/4 or SEW/2, zero- or sign-extended to SEW; inactive
and tail elements follow vma and vta; nothing else changes but vstart, VS and pc. (R155, R157, R200, R201, R202,
R203, R204, R205, R206, R207) -/
def Obligations.ExtensionResult : Prop :=
  ∀ (s : State) (vd vs2 : RegNo) (vm : Bool), s.sized → s.arithReady → groupOk s.cfg vd s.lmul8 s.sew = true →
    (vm = true ∨ vd ≠ 0#5) →
    (groupOk s.cfg vs2 (s.lmul8 / 8) (s.sew / 8) = true → overlapOk vd s.sew s.lmul8 vs2 (s.sew / 8) (s.lmul8 / 8) = true →
      (∃ t, exec (.vzextVf8 vd vs2 vm) s = .next t ∧
      ArithDone s t vd s.sew (s.maskOn vm) (fun i => (s.elem vs2 (s.sew / 8) i).setWidth s.sew)) ∧
      (∃ t, exec (.vsextVf8 vd vs2 vm) s = .next t ∧
      ArithDone s t vd s.sew (s.maskOn vm) (fun i => (s.elem vs2 (s.sew / 8) i).signExtend s.sew))) ∧
    (groupOk s.cfg vs2 (s.lmul8 / 4) (s.sew / 4) = true → overlapOk vd s.sew s.lmul8 vs2 (s.sew / 4) (s.lmul8 / 4) = true →
      (∃ t, exec (.vzextVf4 vd vs2 vm) s = .next t ∧
      ArithDone s t vd s.sew (s.maskOn vm) (fun i => (s.elem vs2 (s.sew / 4) i).setWidth s.sew)) ∧
      (∃ t, exec (.vsextVf4 vd vs2 vm) s = .next t ∧
      ArithDone s t vd s.sew (s.maskOn vm) (fun i => (s.elem vs2 (s.sew / 4) i).signExtend s.sew))) ∧
    (groupOk s.cfg vs2 (s.lmul8 / 2) (s.sew / 2) = true → overlapOk vd s.sew s.lmul8 vs2 (s.sew / 2) (s.lmul8 / 2) = true →
      (∃ t, exec (.vzextVf2 vd vs2 vm) s = .next t ∧
      ArithDone s t vd s.sew (s.maskOn vm) (fun i => (s.elem vs2 (s.sew / 2) i).setWidth s.sew)) ∧
      (∃ t, exec (.vsextVf2 vd vs2 vm) s = .next t ∧
      ArithDone s t vd s.sew (s.maskOn vm) (fun i => (s.elem vs2 (s.sew / 2) i).signExtend s.sew)))

/-- vadc and vsbc in all five forms, where every check of R153 passes and the operands are not reserved by R217,
complete: every body element of vd, whatever v0 holds, is (a + b + c) or (a - b - c) modulo 2^SEW, a and b being
unsigned and c the mask bit of v0; tail elements follow vta; nothing else changes but vstart, VS and pc. (R155,
R157, R215, R216, R217, R219, R220, R221, R228, R229) -/
def Obligations.AddSubtractWithCarryResult : Prop :=
  ∀ (s : State) (vd vs2 : RegNo), s.sized → s.arithReady → vd ≠ 0#5 → groupOk s.cfg vd s.lmul8 s.sew = true →
    groupOk s.cfg vs2 s.lmul8 s.sew = true →
    (∀ vs1 : RegNo, groupOk s.cfg vs1 s.lmul8 s.sew = true →
    (∃ t, exec (.vadcVvm vd vs2 vs1) s = .next t ∧
      ArithDone s t vd s.sew (fun _ => true) (fun i => BitVec.ofNat s.sew ((s.elem vs2 s.sew i).toNat + (s.elem vs1 s.sew i).toNat + (s.mask 0#5 i).toNat))) ∧
    (∃ t, exec (.vsbcVvm vd vs2 vs1) s = .next t ∧
      ArithDone s t vd s.sew (fun _ => true) (fun i => BitVec.ofInt s.sew ((s.elem vs2 s.sew i).toNat - (s.elem vs1 s.sew i).toNat - (s.mask 0#5 i).toNat)))) ∧
    (∀ rs1 : RegNo,
    (∃ t, exec (.vadcVxm vd vs2 rs1) s = .next t ∧
      ArithDone s t vd s.sew (fun _ => true) (fun i => BitVec.ofNat s.sew ((s.elem vs2 s.sew i).toNat + (scalarOp s rs1 s.sew).toNat + (s.mask 0#5 i).toNat))) ∧
    (∃ t, exec (.vsbcVxm vd vs2 rs1) s = .next t ∧
      ArithDone s t vd s.sew (fun _ => true) (fun i => BitVec.ofInt s.sew ((s.elem vs2 s.sew i).toNat - (scalarOp s rs1 s.sew).toNat - (s.mask 0#5 i).toNat)))) ∧
    ∀ imm : BitVec 5,
    (∃ t, exec (.vadcVim vd vs2 imm) s = .next t ∧
      ArithDone s t vd s.sew (fun _ => true) (fun i => BitVec.ofNat s.sew ((s.elem vs2 s.sew i).toNat + (immOp imm s.sew).toNat + (s.mask 0#5 i).toNat)))

/-- vmadc and vmsbc in all ten forms, where every check of R153 passes and the operands are not reserved by R218,
complete: mask bit i of vd, for every body element i whatever v0 holds, is 1 exactly when a + b + c >= 2^SEW (vmadc)
or a < b + c (vmsbc), c being the mask bit of v0 in the forms with carry-in and 0 in the others; bits below vstart
are as before, bits from vl up may be anything; no other register changes. vd may be v0 and needs no alignment.
(R156, R157, R215, R216, R218, R222, R224, R225, R227, R230, R233) -/
def Obligations.CarryOutResult : Prop :=
  ∀ (s : State) (vd vs2 : RegNo), s.sized → s.arithReady → groupOk s.cfg vs2 s.lmul8 s.sew = true →
    overlapOk vd 1 8 vs2 s.sew s.lmul8 = true →
    (∀ vs1 : RegNo, groupOk s.cfg vs1 s.lmul8 s.sew = true → overlapOk vd 1 8 vs1 s.sew s.lmul8 = true →
    (∃ t, exec (.vmadcVvm vd vs2 vs1) s = .next t ∧
      MaskDone s t vd (fun i => decide (2 ^ s.sew ≤ (s.elem vs2 s.sew i).toNat + (s.elem vs1 s.sew i).toNat + (s.mask 0#5 i).toNat))) ∧
    (∃ t, exec (.vmadcVv vd vs2 vs1) s = .next t ∧
      MaskDone s t vd (fun i => decide (2 ^ s.sew ≤ (s.elem vs2 s.sew i).toNat + (s.elem vs1 s.sew i).toNat + 0))) ∧
    (∃ t, exec (.vmsbcVvm vd vs2 vs1) s = .next t ∧
      MaskDone s t vd (fun i => decide ((s.elem vs2 s.sew i).toNat < (s.elem vs1 s.sew i).toNat + (s.mask 0#5 i).toNat))) ∧
    (∃ t, exec (.vmsbcVv vd vs2 vs1) s = .next t ∧
      MaskDone s t vd (fun i => decide ((s.elem vs2 s.sew i).toNat < (s.elem vs1 s.sew i).toNat + 0)))) ∧
    (∀ rs1 : RegNo,
    (∃ t, exec (.vmadcVxm vd vs2 rs1) s = .next t ∧
      MaskDone s t vd (fun i => decide (2 ^ s.sew ≤ (s.elem vs2 s.sew i).toNat + (scalarOp s rs1 s.sew).toNat + (s.mask 0#5 i).toNat))) ∧
    (∃ t, exec (.vmadcVx vd vs2 rs1) s = .next t ∧
      MaskDone s t vd (fun i => decide (2 ^ s.sew ≤ (s.elem vs2 s.sew i).toNat + (scalarOp s rs1 s.sew).toNat + 0))) ∧
    (∃ t, exec (.vmsbcVxm vd vs2 rs1) s = .next t ∧
      MaskDone s t vd (fun i => decide ((s.elem vs2 s.sew i).toNat < (scalarOp s rs1 s.sew).toNat + (s.mask 0#5 i).toNat))) ∧
    (∃ t, exec (.vmsbcVx vd vs2 rs1) s = .next t ∧
      MaskDone s t vd (fun i => decide ((s.elem vs2 s.sew i).toNat < (scalarOp s rs1 s.sew).toNat + 0)))) ∧
    ∀ imm : BitVec 5,
    (∃ t, exec (.vmadcVim vd vs2 imm) s = .next t ∧
      MaskDone s t vd (fun i => decide (2 ^ s.sew ≤ (s.elem vs2 s.sew i).toNat + (immOp imm s.sew).toNat + (s.mask 0#5 i).toNat))) ∧
    (∃ t, exec (.vmadcVi vd vs2 imm) s = .next t ∧
      MaskDone s t vd (fun i => decide (2 ^ s.sew ≤ (s.elem vs2 s.sew i).toNat + (immOp imm s.sew).toNat + 0)))

/-- vmand.mm, where the vector unit is on, vill is 0, vstart < VLMAX and the policy on vstart admits it, completes for
any three registers: each body bit of vd is the and of the bits of vs2 and vs1, bits below vstart are as before,
bits from vl up may be anything, and no other register and no byte of memory changes. (R156, R157, R245, R246, R247) -/
def Obligations.MaskAndResult : Prop :=
  ∀ (s : State) (vd vs2 vs1 : RegNo), s.sized → s.arithReady →
    ∃ t, exec (.vmandMm vd vs2 vs1) s = .next t ∧ MaskDone s t vd (fun i => s.mask vs2 i && s.mask vs1 i)

/-- The scalar operand is the low SEW bits of x[rs1] when XLEN >= SEW and x[rs1] sign-extended from XLEN bits when XLEN
< SEW; x0 gives 0; the immediate operand is the 5-bit immediate sign-extended to SEW bits, as an integer from -16 to
15. (R151, R152) -/
def Obligations.ScalarAndImmediateOperands : Prop :=
  ∀ (s : State) (r : RegNo) (imm : BitVec 5) (sew : Nat),
    (sew ≤ s.cfg.xbits → (scalarOp s r sew).toNat = (s.readX r).toNat % 2 ^ sew) ∧
      (s.cfg.xbits ≤ sew → (scalarOp s r sew).toInt = ((s.readX r).setWidth s.cfg.xbits).toInt) ∧
      (scalarOp s 0#5 sew).toNat = 0 ∧ (5 ≤ sew → (immOp imm sew).toInt = imm.toInt)

/-- For every state whatever, and every form with reserved operands, the instruction raises IllegalInstruction with
nothing else changed: the sixteen widening forms (R169 (a) to (g)), the six extensions (R201), the five vadc and
vsbc forms (R217), the ten vmadc and vmsbc forms (R218), the unit-stride, strided, fault-only-first and indexed
loads (R251) and stores (R311) of the four widths, and the whole-register loads (R290) and stores (R332) but
vl1re8.v and vs1r.v. Each form lists its own conditions: an operand group not in order, a masked destination that
contains v0, a forbidden overlap of destination and source. A group is not in order exactly when its EMUL (counted
in eighths) is outside 1/8 to 8, its EEW is below 8 or above ELEN, or its base is not a multiple of max(1, EMUL); an
overlap is forbidden exactly when the groups share a register, their EEWs differ, and neither exception of R48
holds. (In the store clauses vd is the data register vs3.) vmand.mm, vlm.v, vsm.v, vl1re8.v and vs1r.v have no
reserved operands. (R39, R47, R48, R118, R169, R201, R217, R218, R251, R290, R311, R332) -/
def Obligations.ReservedOperandsRaiseIllegal : Prop :=
  ∀ (s : State) (vd vs2 vs1 r r2 : RegNo) (imm : BitVec 5) (vm : Bool),
    let illegal := fun i : Instr => ∃ t, exec i s = .next t ∧ IllegalDone s t (encode i)
    (groupOk s.cfg vd (2 * s.lmul8) (2 * s.sew) = false ∨ v0Ok vd vm = false ∨
      groupOk s.cfg vs2 s.lmul8 s.sew = false ∨ groupOk s.cfg vs1 s.lmul8 s.sew = false ∨
      overlapOk vd (2 * s.sew) (2 * s.lmul8) vs2 s.sew s.lmul8 = false ∨
      overlapOk vd (2 * s.sew) (2 * s.lmul8) vs1 s.sew s.lmul8 = false →
      illegal (.vwadduVv vd vs2 vs1 vm) ∧ illegal (.vwaddVv vd vs2 vs1 vm) ∧
      illegal (.vwsubuVv vd vs2 vs1 vm) ∧ illegal (.vwsubVv vd vs2 vs1 vm)) ∧
    (groupOk s.cfg vd (2 * s.lmul8) (2 * s.sew) = false ∨ v0Ok vd vm = false ∨
      groupOk s.cfg vs2 s.lmul8 s.sew = false ∨
      overlapOk vd (2 * s.sew) (2 * s.lmul8) vs2 s.sew s.lmul8 = false →
      illegal (.vwadduVx vd vs2 r vm) ∧ illegal (.vwaddVx vd vs2 r vm) ∧ illegal (.vwsubuVx vd vs2 r vm) ∧
      illegal (.vwsubVx vd vs2 r vm)) ∧
    (groupOk s.cfg vd (2 * s.lmul8) (2 * s.sew) = false ∨ v0Ok vd vm = false ∨
      groupOk s.cfg vs2 (2 * s.lmul8) (2 * s.sew) = false ∨ groupOk s.cfg vs1 s.lmul8 s.sew = false ∨
      overlapOk vd (2 * s.sew) (2 * s.lmul8) vs1 s.sew s.lmul8 = false →
      illegal (.vwadduWv vd vs2 vs1 vm) ∧ illegal (.vwaddWv vd vs2 vs1 vm) ∧
      illegal (.vwsubuWv vd vs2 vs1 vm) ∧ illegal (.vwsubWv vd vs2 vs1 vm)) ∧
    (groupOk s.cfg vd (2 * s.lmul8) (2 * s.sew) = false ∨ v0Ok vd vm = false ∨
      groupOk s.cfg vs2 (2 * s.lmul8) (2 * s.sew) = false →
      illegal (.vwadduWx vd vs2 r vm) ∧ illegal (.vwaddWx vd vs2 r vm) ∧ illegal (.vwsubuWx vd vs2 r vm) ∧
      illegal (.vwsubWx vd vs2 r vm)) ∧
    (groupOk s.cfg vd s.lmul8 s.sew = false ∨ v0Ok vd vm = false ∨
      groupOk s.cfg vs2 (s.lmul8 / 8) (s.sew / 8) = false ∨
      overlapOk vd s.sew s.lmul8 vs2 (s.sew / 8) (s.lmul8 / 8) = false →
      illegal (.vzextVf8 vd vs2 vm) ∧ illegal (.vsextVf8 vd vs2 vm)) ∧
    (groupOk s.cfg vd s.lmul8 s.sew = false ∨ v0Ok vd vm = false ∨
      groupOk s.cfg vs2 (s.lmul8 / 4) (s.sew / 4) = false ∨
      overlapOk vd s.sew s.lmul8 vs2 (s.sew / 4) (s.lmul8 / 4) = false →
      illegal (.vzextVf4 vd vs2 vm) ∧ illegal (.vsextVf4 vd vs2 vm)) ∧
    (groupOk s.cfg vd s.lmul8 s.sew = false ∨ v0Ok vd vm = false ∨
      groupOk s.cfg vs2 (s.lmul8 / 2) (s.sew / 2) = false ∨
      overlapOk vd s.sew s.lmul8 vs2 (s.sew / 2) (s.lmul8 / 2) = false →
      illegal (.vzextVf2 vd vs2 vm) ∧ illegal (.vsextVf2 vd vs2 vm)) ∧
    (vd = 0#5 ∨ groupOk s.cfg vd s.lmul8 s.sew = false ∨ groupOk s.cfg vs2 s.lmul8 s.sew = false ∨
      groupOk s.cfg vs1 s.lmul8 s.sew = false →
      illegal (.vadcVvm vd vs2 vs1) ∧ illegal (.vsbcVvm vd vs2 vs1)) ∧
    (vd = 0#5 ∨ groupOk s.cfg vd s.lmul8 s.sew = false ∨ groupOk s.cfg vs2 s.lmul8 s.sew = false →
      illegal (.vadcVxm vd vs2 r) ∧ illegal (.vsbcVxm vd vs2 r) ∧ illegal (.vadcVim vd vs2 imm)) ∧
    (groupOk s.cfg vs2 s.lmul8 s.sew = false ∨ groupOk s.cfg vs1 s.lmul8 s.sew = false ∨
      overlapOk vd 1 8 vs2 s.sew s.lmul8 = false ∨ overlapOk vd 1 8 vs1 s.sew s.lmul8 = false →
      illegal (.vmadcVvm vd vs2 vs1) ∧ illegal (.vmadcVv vd vs2 vs1) ∧ illegal (.vmsbcVvm vd vs2 vs1) ∧
      illegal (.vmsbcVv vd vs2 vs1)) ∧
    (groupOk s.cfg vs2 s.lmul8 s.sew = false ∨ overlapOk vd 1 8 vs2 s.sew s.lmul8 = false →
      illegal (.vmadcVxm vd vs2 r) ∧ illegal (.vmadcVx vd vs2 r) ∧ illegal (.vmsbcVxm vd vs2 r) ∧
      illegal (.vmsbcVx vd vs2 r) ∧ illegal (.vmadcVim vd vs2 imm) ∧ illegal (.vmadcVi vd vs2 imm)) ∧
    (groupOk s.cfg vd (s.emul8 8) 8 = false ∨ v0Ok vd vm = false →
      illegal (.vle8V vd r vm) ∧ illegal (.vlse8V vd r r2 vm) ∧ illegal (.vle8ffV vd r vm)) ∧
    (groupOk s.cfg vd s.lmul8 s.sew = false ∨ groupOk s.cfg vs2 (s.emul8 8) 8 = false ∨ v0Ok vd vm = false ∨
      overlapOk vd s.sew s.lmul8 vs2 8 (s.emul8 8) = false →
      illegal (.vluxei8V vd r vs2 vm) ∧ illegal (.vloxei8V vd r vs2 vm)) ∧
    (groupOk s.cfg vd (s.emul8 8) 8 = false →
      illegal (.vse8V vd r vm) ∧ illegal (.vsse8V vd r r2 vm)) ∧
    (groupOk s.cfg vd s.lmul8 s.sew = false ∨ groupOk s.cfg vs2 (s.emul8 8) 8 = false →
      illegal (.vsuxei8V vd r vs2 vm) ∧ illegal (.vsoxei8V vd r vs2 vm)) ∧
    (groupOk s.cfg vd (s.emul8 16) 16 = false ∨ v0Ok vd vm = false →
      illegal (.vle16V vd r vm) ∧ illegal (.vlse16V vd r r2 vm) ∧ illegal (.vle16ffV vd r vm)) ∧
    (groupOk s.cfg vd s.lmul8 s.sew = false ∨ groupOk s.cfg vs2 (s.emul8 16) 16 = false ∨ v0Ok vd vm = false ∨
      overlapOk vd s.sew s.lmul8 vs2 16 (s.emul8 16) = false →
      illegal (.vluxei16V vd r vs2 vm) ∧ illegal (.vloxei16V vd r vs2 vm)) ∧
    (groupOk s.cfg vd (s.emul8 16) 16 = false →
      illegal (.vse16V vd r vm) ∧ illegal (.vsse16V vd r r2 vm)) ∧
    (groupOk s.cfg vd s.lmul8 s.sew = false ∨ groupOk s.cfg vs2 (s.emul8 16) 16 = false →
      illegal (.vsuxei16V vd r vs2 vm) ∧ illegal (.vsoxei16V vd r vs2 vm)) ∧
    (groupOk s.cfg vd (s.emul8 32) 32 = false ∨ v0Ok vd vm = false →
      illegal (.vle32V vd r vm) ∧ illegal (.vlse32V vd r r2 vm) ∧ illegal (.vle32ffV vd r vm)) ∧
    (groupOk s.cfg vd s.lmul8 s.sew = false ∨ groupOk s.cfg vs2 (s.emul8 32) 32 = false ∨ v0Ok vd vm = false ∨
      overlapOk vd s.sew s.lmul8 vs2 32 (s.emul8 32) = false →
      illegal (.vluxei32V vd r vs2 vm) ∧ illegal (.vloxei32V vd r vs2 vm)) ∧
    (groupOk s.cfg vd (s.emul8 32) 32 = false →
      illegal (.vse32V vd r vm) ∧ illegal (.vsse32V vd r r2 vm)) ∧
    (groupOk s.cfg vd s.lmul8 s.sew = false ∨ groupOk s.cfg vs2 (s.emul8 32) 32 = false →
      illegal (.vsuxei32V vd r vs2 vm) ∧ illegal (.vsoxei32V vd r vs2 vm)) ∧
    (groupOk s.cfg vd (s.emul8 64) 64 = false ∨ v0Ok vd vm = false →
      illegal (.vle64V vd r vm) ∧ illegal (.vlse64V vd r r2 vm) ∧ illegal (.vle64ffV vd r vm)) ∧
    (groupOk s.cfg vd s.lmul8 s.sew = false ∨ groupOk s.cfg vs2 (s.emul8 64) 64 = false ∨ v0Ok vd vm = false ∨
      overlapOk vd s.sew s.lmul8 vs2 64 (s.emul8 64) = false →
      illegal (.vluxei64V vd r vs2 vm) ∧ illegal (.vloxei64V vd r vs2 vm)) ∧
    (groupOk s.cfg vd (s.emul8 64) 64 = false →
      illegal (.vse64V vd r vm) ∧ illegal (.vsse64V vd r r2 vm)) ∧
    (groupOk s.cfg vd s.lmul8 s.sew = false ∨ groupOk s.cfg vs2 (s.emul8 64) 64 = false →
      illegal (.vsuxei64V vd r vs2 vm) ∧ illegal (.vsoxei64V vd r vs2 vm)) ∧
    (s.cfg.elen < 16 →
      illegal (.vl1re16V vd r) ∧ illegal (.vl2re16V vd r) ∧ illegal (.vl4re16V vd r) ∧
      illegal (.vl8re16V vd r)) ∧
    (s.cfg.elen < 32 →
      illegal (.vl1re32V vd r) ∧ illegal (.vl2re32V vd r) ∧ illegal (.vl4re32V vd r) ∧
      illegal (.vl8re32V vd r)) ∧
    (s.cfg.elen < 64 →
      illegal (.vl1re64V vd r) ∧ illegal (.vl2re64V vd r) ∧ illegal (.vl4re64V vd r) ∧
      illegal (.vl8re64V vd r)) ∧
    (vd.toNat % 2 ≠ 0 →
      illegal (.vl2re8V vd r) ∧ illegal (.vl2re16V vd r) ∧ illegal (.vl2re32V vd r) ∧
      illegal (.vl2re64V vd r) ∧ illegal (.vs2rV vd r)) ∧
    (vd.toNat % 4 ≠ 0 →
      illegal (.vl4re8V vd r) ∧ illegal (.vl4re16V vd r) ∧ illegal (.vl4re32V vd r) ∧
      illegal (.vl4re64V vd r) ∧ illegal (.vs4rV vd r)) ∧
    (vd.toNat % 8 ≠ 0 →
      illegal (.vl8re8V vd r) ∧ illegal (.vl8re16V vd r) ∧ illegal (.vl8re32V vd r) ∧
      illegal (.vl8re64V vd r) ∧ illegal (.vs8rV vd r)) ∧
    (∀ (b : RegNo) (m w : Nat), groupOk s.cfg b m w = false ↔
      m < 1 ∨ 64 < m ∨ w < 8 ∨ s.cfg.elen < w ∨ b.toNat % nregs m ≠ 0) ∧
    (v0Ok vd vm = false ↔ vm = false ∧ vd = 0#5) ∧
    ∀ (db sb : RegNo) (dW dM sW sM : Nat), overlapOk db dW dM sb sW sM = false ↔
      (∃ g, (db.toNat ≤ g ∧ g < db.toNat + nregs dM) ∧ sb.toNat ≤ g ∧ g < sb.toNat + nregs sM) ∧ dW ≠ sW ∧
        ¬ (dW < sW ∧ db = sb) ∧ ¬ (sW < dW ∧ 8 ≤ sM ∧ sb.toNat + nregs sM = db.toNat + nregs dM)

/-- The unit-stride and strided loads of width w, where the checks of R252 pass and every active element's access is
aligned (or performed), admitted and to main memory, complete: each active element i of vd, of width w whatever SEW
is, is the little-endian value at its address; inactive and tail elements follow vma and vta; no other register, no
x register, vl or vtype, and no byte of memory changes. (R250, R251, R252, R255, R256, R257, R258, R259, R260, R261,
R262, R263) -/
def Obligations.UnitAndStridedLoadResult : Prop :=
  ∀ (s : State) (vd rs1 rs2 : RegNo) (vm : Bool), s.sized → s.memReady → (vm = true ∨ vd ≠ 0#5) →
    (groupOk s.cfg vd (s.emul8 8) 8 = true →
      (s.elementsOk .load 8 s.vlN (s.maskOn vm) (unitAddr s rs1 1) →
        ∃ t, exec (.vle8V vd rs1 vm) s = .next t ∧
          LoadDone s t vd 8 s.vlN (s.slots 8) (nregs (s.emul8 8)) s.vma s.vta (s.maskOn vm) (unitAddr s rs1 1)) ∧
      (s.elementsOk .load 8 s.vlN (s.maskOn vm) (stridedAddr s rs1 rs2) →
        ∃ t, exec (.vlse8V vd rs1 rs2 vm) s = .next t ∧
          LoadDone s t vd 8 s.vlN (s.slots 8) (nregs (s.emul8 8)) s.vma s.vta (s.maskOn vm) (stridedAddr s rs1 rs2))) ∧
    (groupOk s.cfg vd (s.emul8 16) 16 = true →
      (s.elementsOk .load 16 s.vlN (s.maskOn vm) (unitAddr s rs1 2) →
        ∃ t, exec (.vle16V vd rs1 vm) s = .next t ∧
          LoadDone s t vd 16 s.vlN (s.slots 16) (nregs (s.emul8 16)) s.vma s.vta (s.maskOn vm) (unitAddr s rs1 2)) ∧
      (s.elementsOk .load 16 s.vlN (s.maskOn vm) (stridedAddr s rs1 rs2) →
        ∃ t, exec (.vlse16V vd rs1 rs2 vm) s = .next t ∧
          LoadDone s t vd 16 s.vlN (s.slots 16) (nregs (s.emul8 16)) s.vma s.vta (s.maskOn vm) (stridedAddr s rs1 rs2))) ∧
    (groupOk s.cfg vd (s.emul8 32) 32 = true →
      (s.elementsOk .load 32 s.vlN (s.maskOn vm) (unitAddr s rs1 4) →
        ∃ t, exec (.vle32V vd rs1 vm) s = .next t ∧
          LoadDone s t vd 32 s.vlN (s.slots 32) (nregs (s.emul8 32)) s.vma s.vta (s.maskOn vm) (unitAddr s rs1 4)) ∧
      (s.elementsOk .load 32 s.vlN (s.maskOn vm) (stridedAddr s rs1 rs2) →
        ∃ t, exec (.vlse32V vd rs1 rs2 vm) s = .next t ∧
          LoadDone s t vd 32 s.vlN (s.slots 32) (nregs (s.emul8 32)) s.vma s.vta (s.maskOn vm) (stridedAddr s rs1 rs2))) ∧
    (groupOk s.cfg vd (s.emul8 64) 64 = true →
      (s.elementsOk .load 64 s.vlN (s.maskOn vm) (unitAddr s rs1 8) →
        ∃ t, exec (.vle64V vd rs1 vm) s = .next t ∧
          LoadDone s t vd 64 s.vlN (s.slots 64) (nregs (s.emul8 64)) s.vma s.vta (s.maskOn vm) (unitAddr s rs1 8)) ∧
      (s.elementsOk .load 64 s.vlN (s.maskOn vm) (stridedAddr s rs1 rs2) →
        ∃ t, exec (.vlse64V vd rs1 rs2 vm) s = .next t ∧
          LoadDone s t vd 64 s.vlN (s.slots 64) (nregs (s.emul8 64)) s.vma s.vta (s.maskOn vm) (stridedAddr s rs1 rs2)))

/-- The indexed loads, unordered and ordered, where the checks of R252 pass and every active element's access does not
stop, complete: each active element i of vd, of width SEW, is the little-endian value at x[rs1] plus element i of
vs2 of width w, unsigned; inactive and tail elements follow vma and vta; nothing else changes. (R250, R251, R252,
R255, R264, R265, R266, R267, R268, R269, R270, R271) -/
def Obligations.IndexedLoadResult : Prop :=
  ∀ (s : State) (vd rs1 vs2 : RegNo) (vm : Bool), s.sized → s.memReady → (vm = true ∨ vd ≠ 0#5) →
    groupOk s.cfg vd s.lmul8 s.sew = true →
    (groupOk s.cfg vs2 (s.emul8 8) 8 = true → overlapOk vd s.sew s.lmul8 vs2 8 (s.emul8 8) = true →
      s.elementsOk .load s.sew s.vlN (s.maskOn vm) (indexedAddr s rs1 vs2 8) →
      (∃ t, exec (.vluxei8V vd rs1 vs2 vm) s = .next t ∧ LoadDone s t vd s.sew s.vlN (s.slots s.sew) (nregs s.lmul8)
        s.vma s.vta (s.maskOn vm) (indexedAddr s rs1 vs2 8)) ∧
      ∃ t, exec (.vloxei8V vd rs1 vs2 vm) s = .next t ∧ LoadDone s t vd s.sew s.vlN (s.slots s.sew) (nregs s.lmul8)
        s.vma s.vta (s.maskOn vm) (indexedAddr s rs1 vs2 8)) ∧
    (groupOk s.cfg vs2 (s.emul8 16) 16 = true → overlapOk vd s.sew s.lmul8 vs2 16 (s.emul8 16) = true →
      s.elementsOk .load s.sew s.vlN (s.maskOn vm) (indexedAddr s rs1 vs2 16) →
      (∃ t, exec (.vluxei16V vd rs1 vs2 vm) s = .next t ∧ LoadDone s t vd s.sew s.vlN (s.slots s.sew) (nregs s.lmul8)
        s.vma s.vta (s.maskOn vm) (indexedAddr s rs1 vs2 16)) ∧
      ∃ t, exec (.vloxei16V vd rs1 vs2 vm) s = .next t ∧ LoadDone s t vd s.sew s.vlN (s.slots s.sew) (nregs s.lmul8)
        s.vma s.vta (s.maskOn vm) (indexedAddr s rs1 vs2 16)) ∧
    (groupOk s.cfg vs2 (s.emul8 32) 32 = true → overlapOk vd s.sew s.lmul8 vs2 32 (s.emul8 32) = true →
      s.elementsOk .load s.sew s.vlN (s.maskOn vm) (indexedAddr s rs1 vs2 32) →
      (∃ t, exec (.vluxei32V vd rs1 vs2 vm) s = .next t ∧ LoadDone s t vd s.sew s.vlN (s.slots s.sew) (nregs s.lmul8)
        s.vma s.vta (s.maskOn vm) (indexedAddr s rs1 vs2 32)) ∧
      ∃ t, exec (.vloxei32V vd rs1 vs2 vm) s = .next t ∧ LoadDone s t vd s.sew s.vlN (s.slots s.sew) (nregs s.lmul8)
        s.vma s.vta (s.maskOn vm) (indexedAddr s rs1 vs2 32)) ∧
    (groupOk s.cfg vs2 (s.emul8 64) 64 = true → overlapOk vd s.sew s.lmul8 vs2 64 (s.emul8 64) = true →
      s.elementsOk .load s.sew s.vlN (s.maskOn vm) (indexedAddr s rs1 vs2 64) →
      (∃ t, exec (.vluxei64V vd rs1 vs2 vm) s = .next t ∧ LoadDone s t vd s.sew s.vlN (s.slots s.sew) (nregs s.lmul8)
        s.vma s.vta (s.maskOn vm) (indexedAddr s rs1 vs2 64)) ∧
      ∃ t, exec (.vloxei64V vd rs1 vs2 vm) s = .next t ∧ LoadDone s t vd s.sew s.vlN (s.slots s.sew) (nregs s.lmul8)
        s.vma s.vta (s.maskOn vm) (indexedAddr s rs1 vs2 64))

/-- The fault-only-first loads of width w, where the checks of R252 pass and vstart < vl: if no active element's access
stops, the load completes with vl = n, where n is vl under the policy never and otherwise any number from 1 (or
vstart, when that is not 0) to vl, the elements below n loaded; if the lowest-indexed active element that raises is
i > 0, the load does not trap and completes with vl = n, the elements below n loaded, where n is i under the policy
never and, under may_trim, any number from 1 (or vstart) to i (the limit drawn first, then cut at i where it lay
beyond); if it is element 0, under either policy the trap is taken and leaves what the trap of any other load leaves
(LoadTrapped): vstart 0, vl, vtype, the x registers, memory and every vector register outside the destination group
as before, inactive and tail elements kept or agnostic, VS dirty. Which cause and trap value an access raises is
said in LoadTrapsAtElement. (R252, R253, R254, R255, R284, R285, R286, R287, R288) -/
def Obligations.FirstFaultLoadResult : Prop :=
  ∀ (s : State) (vd rs1 : RegNo) (vm : Bool), s.sized → s.memReady → s.vstartN < s.vlN → (vm = true ∨ vd ≠ 0#5) →
    let ffRange := fun n : Nat => n ≤ s.vlN ∧ s.vstartN ≤ n ∧ 1 ≤ n ∧ (s.cfg.ffTrim = .never → n = s.vlN)
    let cutRange := fun i n : Nat => 1 ≤ n ∧ s.vstartN ≤ n ∧ n ≤ i ∧ (s.cfg.ffTrim = .never → n = i)
    (groupOk s.cfg vd (s.emul8 8) 8 = true →
      (s.elementsOk .load 8 s.vlN (s.maskOn vm) (unitAddr s rs1 1) → ∃ n, ffRange n ∧
        ∃ t, exec (.vle8ffV vd rs1 vm) s = .next t ∧ FirstDone s t vd 8 n (s.maskOn vm) (unitAddr s rs1 1)) ∧
      ∀ i c tval, s.raisesAt .load 8 s.vlN (s.maskOn vm) (unitAddr s rs1 1) i c tval →
        (0 < i → ∃ n, cutRange i n ∧ ∃ t, exec (.vle8ffV vd rs1 vm) s = .next t ∧
          FirstDone s t vd 8 n (s.maskOn vm) (unitAddr s rs1 1)) ∧
        (i = 0 → ∃ t, exec (.vle8ffV vd rs1 vm) s = .next t ∧ 
          LoadTrapped s t vd 8 s.vlN (s.slots 8) (nregs (s.emul8 8)) s.vma s.vta (s.maskOn vm) (unitAddr s rs1 1) 0 c tval)) ∧
    (groupOk s.cfg vd (s.emul8 16) 16 = true →
      (s.elementsOk .load 16 s.vlN (s.maskOn vm) (unitAddr s rs1 2) → ∃ n, ffRange n ∧
        ∃ t, exec (.vle16ffV vd rs1 vm) s = .next t ∧ FirstDone s t vd 16 n (s.maskOn vm) (unitAddr s rs1 2)) ∧
      ∀ i c tval, s.raisesAt .load 16 s.vlN (s.maskOn vm) (unitAddr s rs1 2) i c tval →
        (0 < i → ∃ n, cutRange i n ∧ ∃ t, exec (.vle16ffV vd rs1 vm) s = .next t ∧
          FirstDone s t vd 16 n (s.maskOn vm) (unitAddr s rs1 2)) ∧
        (i = 0 → ∃ t, exec (.vle16ffV vd rs1 vm) s = .next t ∧ 
          LoadTrapped s t vd 16 s.vlN (s.slots 16) (nregs (s.emul8 16)) s.vma s.vta (s.maskOn vm) (unitAddr s rs1 2) 0 c tval)) ∧
    (groupOk s.cfg vd (s.emul8 32) 32 = true →
      (s.elementsOk .load 32 s.vlN (s.maskOn vm) (unitAddr s rs1 4) → ∃ n, ffRange n ∧
        ∃ t, exec (.vle32ffV vd rs1 vm) s = .next t ∧ FirstDone s t vd 32 n (s.maskOn vm) (unitAddr s rs1 4)) ∧
      ∀ i c tval, s.raisesAt .load 32 s.vlN (s.maskOn vm) (unitAddr s rs1 4) i c tval →
        (0 < i → ∃ n, cutRange i n ∧ ∃ t, exec (.vle32ffV vd rs1 vm) s = .next t ∧
          FirstDone s t vd 32 n (s.maskOn vm) (unitAddr s rs1 4)) ∧
        (i = 0 → ∃ t, exec (.vle32ffV vd rs1 vm) s = .next t ∧ 
          LoadTrapped s t vd 32 s.vlN (s.slots 32) (nregs (s.emul8 32)) s.vma s.vta (s.maskOn vm) (unitAddr s rs1 4) 0 c tval)) ∧
    (groupOk s.cfg vd (s.emul8 64) 64 = true →
      (s.elementsOk .load 64 s.vlN (s.maskOn vm) (unitAddr s rs1 8) → ∃ n, ffRange n ∧
        ∃ t, exec (.vle64ffV vd rs1 vm) s = .next t ∧ FirstDone s t vd 64 n (s.maskOn vm) (unitAddr s rs1 8)) ∧
      ∀ i c tval, s.raisesAt .load 64 s.vlN (s.maskOn vm) (unitAddr s rs1 8) i c tval →
        (0 < i → ∃ n, cutRange i n ∧ ∃ t, exec (.vle64ffV vd rs1 vm) s = .next t ∧
          FirstDone s t vd 64 n (s.maskOn vm) (unitAddr s rs1 8)) ∧
        (i = 0 → ∃ t, exec (.vle64ffV vd rs1 vm) s = .next t ∧ 
          LoadTrapped s t vd 64 s.vlN (s.slots 64) (nregs (s.emul8 64)) s.vma s.vta (s.maskOn vm) (unitAddr s rs1 8) 0 c tval))

/-- vlm.v, where the vector unit is on, vill is 0 and every byte's access is admitted and to main memory, completes
whatever SEW, LMUL, vma and vta are: bytes vstart to ceil(vl/8)-1 of vd are those at x[rs1] upward, the bytes after
them are kept or all ones, the bytes before as before; with vstart >= ceil(vl/8) nothing is written; no other
register changes and any vd, v0 included, is allowed. (R29, R46, R289) -/
def Obligations.MaskLoadResult : Prop :=
  ∀ (s : State) (vd rs1 : RegNo), s.sized → s.vsEnabled = true → s.vill = false →
    s.elementsOk .load 8 ((s.vlN + 7) / 8) (fun _ => true) (unitAddr s rs1 1) →
    ∃ t, exec (.vlmV vd rs1) s = .next t ∧
      LoadDone s t vd 8 ((s.vlN + 7) / 8) (s.cfg.vlen / 8) 1 false true (fun _ => true) (unitAddr s rs1 1)

/-- The sixteen whole-register loads, where the vector unit is on, vd is a multiple of n, w <= ELEN and every access is
aligned (or performed), admitted and to main memory, complete whatever vtype, vill and vl hold: element i of width w
of the n registers from vd, for every i from vstart to n*VLEN/w - 1, is the little-endian value at x[rs1] + i*w/8;
elements below vstart are as before; no other register, vl, vtype, x register or byte of memory changes. (R29, R32,
R290, R291, R294, R295, R298, R299, R302, R303, R306) -/
def Obligations.WholeLoadResult : Prop :=
  ∀ (s : State) (vd rs1 : RegNo), s.cfg.wf → s.vsEnabled = true →
    let wholeOk := fun n w : Nat => vd.toNat % n = 0 ∧ w ≤ s.cfg.elen ∧
      s.elementsOk .load w (n * s.cfg.vlen / w) (fun _ => true) (unitAddr s rs1 (w / 8))
    let whole := fun (t : State) (n w : Nat) =>
      LoadDone s t vd w (n * s.cfg.vlen / w) (n * s.cfg.vlen / w) n false false (fun _ => true) (unitAddr s rs1 (w / 8))
    (wholeOk 1 8 → ∃ t, exec (.vl1re8V vd rs1) s = .next t ∧ whole t 1 8) ∧
    (wholeOk 1 16 → ∃ t, exec (.vl1re16V vd rs1) s = .next t ∧ whole t 1 16) ∧
    (wholeOk 1 32 → ∃ t, exec (.vl1re32V vd rs1) s = .next t ∧ whole t 1 32) ∧
    (wholeOk 1 64 → ∃ t, exec (.vl1re64V vd rs1) s = .next t ∧ whole t 1 64) ∧
    (wholeOk 2 8 → ∃ t, exec (.vl2re8V vd rs1) s = .next t ∧ whole t 2 8) ∧
    (wholeOk 2 16 → ∃ t, exec (.vl2re16V vd rs1) s = .next t ∧ whole t 2 16) ∧
    (wholeOk 2 32 → ∃ t, exec (.vl2re32V vd rs1) s = .next t ∧ whole t 2 32) ∧
    (wholeOk 2 64 → ∃ t, exec (.vl2re64V vd rs1) s = .next t ∧ whole t 2 64) ∧
    (wholeOk 4 8 → ∃ t, exec (.vl4re8V vd rs1) s = .next t ∧ whole t 4 8) ∧
    (wholeOk 4 16 → ∃ t, exec (.vl4re16V vd rs1) s = .next t ∧ whole t 4 16) ∧
    (wholeOk 4 32 → ∃ t, exec (.vl4re32V vd rs1) s = .next t ∧ whole t 4 32) ∧
    (wholeOk 4 64 → ∃ t, exec (.vl4re64V vd rs1) s = .next t ∧ whole t 4 64) ∧
    (wholeOk 8 8 → ∃ t, exec (.vl8re8V vd rs1) s = .next t ∧ whole t 8 8) ∧
    (wholeOk 8 16 → ∃ t, exec (.vl8re16V vd rs1) s = .next t ∧ whole t 8 16) ∧
    (wholeOk 8 32 → ∃ t, exec (.vl8re32V vd rs1) s = .next t ∧ whole t 8 32) ∧
    (wholeOk 8 64 → ∃ t, exec (.vl8re64V vd rs1) s = .next t ∧ whole t 8 64)

/-- For every load but the fault-only-first ones. The unit-stride, strided and indexed loads, where the checks of R252
pass and i is the lowest-indexed active element whose access raises: the exception is taken with that access's cause
and trap value, vstart is i, the active elements below i are loaded, prestart elements are as before, inactive and
tail elements are kept (agnostic under vma or vta), vl, vtype, the x registers, memory and every vector register
outside the destination group are as before. Active elements from i up may hold anything. vlm.v, where the vector
unit is on and vill is 0, traps so at its byte i, and never for misalignment. The sixteen whole-register loads,
where the vector unit is on, vd is a multiple of n and w <= ELEN, trap so at their element i of width w, whatever
vtype, vill and vl hold; under misaligned_policy trap a base that is not a multiple of w/8 raises load-address-
misaligned at the first element accessed, vstart, with its address. What an access raises: under misaligned_policy
trap a misaligned one raises load-address-misaligned with the element's address, whatever the platform answers; any
other one raises load access fault or load page fault as mem_admits answers access_fault or page_fault, with the
element's address, or, where it is misaligned and performed, that of the first byte refused by itself (or the
element's where none is; DEDUCED, log 23). (R65, R66, R69, R252, R253, R254, R289, R290, R351, R356, R357, R360) -/
def Obligations.LoadTrapsAtElement : Prop :=
  ∀ (s : State) (vd rs1 r2 : RegNo) (vm : Bool) (i : Nat) (c : Cause) (tval : XWord),
    (s.sized → s.memReady → (vm = true ∨ vd ≠ 0#5) →
    (groupOk s.cfg vd (s.emul8 8) 8 = true →
      (s.raisesAt .load 8 s.vlN (s.maskOn vm) (unitAddr s rs1 1) i c tval →
        ∃ t, exec (.vle8V vd rs1 vm) s = .next t ∧
          LoadTrapped s t vd 8 s.vlN (s.slots 8) (nregs (s.emul8 8)) s.vma s.vta (s.maskOn vm) (unitAddr s rs1 1) i c tval) ∧
      (s.raisesAt .load 8 s.vlN (s.maskOn vm) (stridedAddr s rs1 r2) i c tval →
        ∃ t, exec (.vlse8V vd rs1 r2 vm) s = .next t ∧
          LoadTrapped s t vd 8 s.vlN (s.slots 8) (nregs (s.emul8 8)) s.vma s.vta (s.maskOn vm) (stridedAddr s rs1 r2) i c tval)) ∧
    (groupOk s.cfg vd s.lmul8 s.sew = true → groupOk s.cfg r2 (s.emul8 8) 8 = true →
      overlapOk vd s.sew s.lmul8 r2 8 (s.emul8 8) = true → s.raisesAt .load s.sew s.vlN (s.maskOn vm) (indexedAddr s rs1 r2 8) i c tval →
      (∃ t, exec (.vluxei8V vd rs1 r2 vm) s = .next t ∧
        LoadTrapped s t vd s.sew s.vlN (s.slots s.sew) (nregs s.lmul8) s.vma s.vta (s.maskOn vm) (indexedAddr s rs1 r2 8) i c tval) ∧
      ∃ t, exec (.vloxei8V vd rs1 r2 vm) s = .next t ∧
        LoadTrapped s t vd s.sew s.vlN (s.slots s.sew) (nregs s.lmul8) s.vma s.vta (s.maskOn vm) (indexedAddr s rs1 r2 8) i c tval) ∧
    (groupOk s.cfg vd (s.emul8 16) 16 = true →
      (s.raisesAt .load 16 s.vlN (s.maskOn vm) (unitAddr s rs1 2) i c tval →
        ∃ t, exec (.vle16V vd rs1 vm) s = .next t ∧
          LoadTrapped s t vd 16 s.vlN (s.slots 16) (nregs (s.emul8 16)) s.vma s.vta (s.maskOn vm) (unitAddr s rs1 2) i c tval) ∧
      (s.raisesAt .load 16 s.vlN (s.maskOn vm) (stridedAddr s rs1 r2) i c tval →
        ∃ t, exec (.vlse16V vd rs1 r2 vm) s = .next t ∧
          LoadTrapped s t vd 16 s.vlN (s.slots 16) (nregs (s.emul8 16)) s.vma s.vta (s.maskOn vm) (stridedAddr s rs1 r2) i c tval)) ∧
    (groupOk s.cfg vd s.lmul8 s.sew = true → groupOk s.cfg r2 (s.emul8 16) 16 = true →
      overlapOk vd s.sew s.lmul8 r2 16 (s.emul8 16) = true → s.raisesAt .load s.sew s.vlN (s.maskOn vm) (indexedAddr s rs1 r2 16) i c tval →
      (∃ t, exec (.vluxei16V vd rs1 r2 vm) s = .next t ∧
        LoadTrapped s t vd s.sew s.vlN (s.slots s.sew) (nregs s.lmul8) s.vma s.vta (s.maskOn vm) (indexedAddr s rs1 r2 16) i c tval) ∧
      ∃ t, exec (.vloxei16V vd rs1 r2 vm) s = .next t ∧
        LoadTrapped s t vd s.sew s.vlN (s.slots s.sew) (nregs s.lmul8) s.vma s.vta (s.maskOn vm) (indexedAddr s rs1 r2 16) i c tval) ∧
    (groupOk s.cfg vd (s.emul8 32) 32 = true →
      (s.raisesAt .load 32 s.vlN (s.maskOn vm) (unitAddr s rs1 4) i c tval →
        ∃ t, exec (.vle32V vd rs1 vm) s = .next t ∧
          LoadTrapped s t vd 32 s.vlN (s.slots 32) (nregs (s.emul8 32)) s.vma s.vta (s.maskOn vm) (unitAddr s rs1 4) i c tval) ∧
      (s.raisesAt .load 32 s.vlN (s.maskOn vm) (stridedAddr s rs1 r2) i c tval →
        ∃ t, exec (.vlse32V vd rs1 r2 vm) s = .next t ∧
          LoadTrapped s t vd 32 s.vlN (s.slots 32) (nregs (s.emul8 32)) s.vma s.vta (s.maskOn vm) (stridedAddr s rs1 r2) i c tval)) ∧
    (groupOk s.cfg vd s.lmul8 s.sew = true → groupOk s.cfg r2 (s.emul8 32) 32 = true →
      overlapOk vd s.sew s.lmul8 r2 32 (s.emul8 32) = true → s.raisesAt .load s.sew s.vlN (s.maskOn vm) (indexedAddr s rs1 r2 32) i c tval →
      (∃ t, exec (.vluxei32V vd rs1 r2 vm) s = .next t ∧
        LoadTrapped s t vd s.sew s.vlN (s.slots s.sew) (nregs s.lmul8) s.vma s.vta (s.maskOn vm) (indexedAddr s rs1 r2 32) i c tval) ∧
      ∃ t, exec (.vloxei32V vd rs1 r2 vm) s = .next t ∧
        LoadTrapped s t vd s.sew s.vlN (s.slots s.sew) (nregs s.lmul8) s.vma s.vta (s.maskOn vm) (indexedAddr s rs1 r2 32) i c tval) ∧
    (groupOk s.cfg vd (s.emul8 64) 64 = true →
      (s.raisesAt .load 64 s.vlN (s.maskOn vm) (unitAddr s rs1 8) i c tval →
        ∃ t, exec (.vle64V vd rs1 vm) s = .next t ∧
          LoadTrapped s t vd 64 s.vlN (s.slots 64) (nregs (s.emul8 64)) s.vma s.vta (s.maskOn vm) (unitAddr s rs1 8) i c tval) ∧
      (s.raisesAt .load 64 s.vlN (s.maskOn vm) (stridedAddr s rs1 r2) i c tval →
        ∃ t, exec (.vlse64V vd rs1 r2 vm) s = .next t ∧
          LoadTrapped s t vd 64 s.vlN (s.slots 64) (nregs (s.emul8 64)) s.vma s.vta (s.maskOn vm) (stridedAddr s rs1 r2) i c tval)) ∧
    (groupOk s.cfg vd s.lmul8 s.sew = true → groupOk s.cfg r2 (s.emul8 64) 64 = true →
      overlapOk vd s.sew s.lmul8 r2 64 (s.emul8 64) = true → s.raisesAt .load s.sew s.vlN (s.maskOn vm) (indexedAddr s rs1 r2 64) i c tval →
      (∃ t, exec (.vluxei64V vd rs1 r2 vm) s = .next t ∧
        LoadTrapped s t vd s.sew s.vlN (s.slots s.sew) (nregs s.lmul8) s.vma s.vta (s.maskOn vm) (indexedAddr s rs1 r2 64) i c tval) ∧
      ∃ t, exec (.vloxei64V vd rs1 r2 vm) s = .next t ∧
        LoadTrapped s t vd s.sew s.vlN (s.slots s.sew) (nregs s.lmul8) s.vma s.vta (s.maskOn vm) (indexedAddr s rs1 r2 64) i c tval)) ∧
    (∀ (a : XWord) (n : Nat) (e : Cause) (v : XWord),
      (checkAccess s.cfg .load a n = none ↔ s.accessOk .load a n) ∧
        (checkAccess s.cfg .load a n = some (.raises e v) ↔ s.accessRaises .load a n e v) ∧
        (s.cfg.misaligned = .trap → a.toNat % n ≠ 0 →
          checkAccess s.cfg .load a n = some (.raises .loadAddressMisaligned a)) ∧
        (s.cfg.misaligned = .perform ∨ a.toNat % n = 0 → s.refusedAt .load a n v →
          (memAdmits s.cfg a.toNat n .load = .accessFault →
            checkAccess s.cfg .load a n = some (.raises .loadAccessFault v)) ∧
          (memAdmits s.cfg a.toNat n .load = .pageFault →
            checkAccess s.cfg .load a n = some (.raises .loadPageFault v)))) ∧
    (s.sized → s.vsEnabled = true → s.vill = false →
      s.raisesAt .load 8 ((s.vlN + 7) / 8) (fun _ => true) (unitAddr s rs1 1) i c tval → c ≠ .loadAddressMisaligned ∧
      ∃ t, exec (.vlmV vd rs1) s = .next t ∧ LoadTrapped s t vd 8 ((s.vlN + 7) / 8) (s.cfg.vlen / 8) 1 false true
        (fun _ => true) (unitAddr s rs1 1) i c tval) ∧
    (s.cfg.wf → s.vsEnabled = true →
      let trapsWith := fun (n w : Nat) (insn : Instr) (i : Nat) (c : Cause) (tval : XWord) =>
        ∃ t, exec insn s = .next t ∧ LoadTrapped s t vd w (n * s.cfg.vlen / w) (n * s.cfg.vlen / w) n false false
          (fun _ => true) (unitAddr s rs1 (w / 8)) i c tval
      let wholeTraps := fun (n w : Nat) (insn : Instr) => vd.toNat % n = 0 → w ≤ s.cfg.elen →
        (s.raisesAt .load w (n * s.cfg.vlen / w) (fun _ => true) (unitAddr s rs1 (w / 8)) i c tval →
          trapsWith n w insn i c tval) ∧
        (s.cfg.misaligned = .trap → (s.readX rs1).toNat % (w / 8) ≠ 0 → s.vstartN < n * s.cfg.vlen / w →
          trapsWith n w insn s.vstartN .loadAddressMisaligned (unitAddr s rs1 (w / 8) s.vstartN))
      wholeTraps 1 8 (.vl1re8V vd rs1) ∧ wholeTraps 1 16 (.vl1re16V vd rs1) ∧
      wholeTraps 1 32 (.vl1re32V vd rs1) ∧ wholeTraps 1 64 (.vl1re64V vd rs1) ∧
      wholeTraps 2 8 (.vl2re8V vd rs1) ∧ wholeTraps 2 16 (.vl2re16V vd rs1) ∧
      wholeTraps 2 32 (.vl2re32V vd rs1) ∧ wholeTraps 2 64 (.vl2re64V vd rs1) ∧
      wholeTraps 4 8 (.vl4re8V vd rs1) ∧ wholeTraps 4 16 (.vl4re16V vd rs1) ∧
      wholeTraps 4 32 (.vl4re32V vd rs1) ∧ wholeTraps 4 64 (.vl4re64V vd rs1) ∧
      wholeTraps 8 8 (.vl8re8V vd rs1) ∧ wholeTraps 8 16 (.vl8re16V vd rs1) ∧
      wholeTraps 8 32 (.vl8re32V vd rs1) ∧ wholeTraps 8 64 (.vl8re64V vd rs1))

/-- The unit-stride and strided stores of width w, where the checks of R312 pass and every active element's access does
not stop, complete: every byte of memory outside the bytes of the active elements at their addresses reads as
before, every byte inside is that byte of one of the elements that write it (the one there is, where elements do not
overlap), least significant byte lowest; no vector register, v0 included, no x register, vl or vtype changes. (R62,
R72, R310, R311, R312, R314, R315, R317, R318, R319, R321) -/
def Obligations.UnitAndStridedStoreResult : Prop :=
  ∀ (s : State) (vs3 rs1 rs2 : RegNo) (vm : Bool), s.sized → s.memReady →
    (groupOk s.cfg vs3 (s.emul8 8) 8 = true →
      (s.elementsOk .store 8 s.vlN (s.maskOn vm) (unitAddr s rs1 1) →
        ∃ t, exec (.vse8V vs3 rs1 vm) s = .next t ∧ StoreDone s t vs3 8 s.vlN (s.maskOn vm) (unitAddr s rs1 1)) ∧
      (s.elementsOk .store 8 s.vlN (s.maskOn vm) (stridedAddr s rs1 rs2) →
        ∃ t, exec (.vsse8V vs3 rs1 rs2 vm) s = .next t ∧
          StoreDone s t vs3 8 s.vlN (s.maskOn vm) (stridedAddr s rs1 rs2))) ∧
    (groupOk s.cfg vs3 (s.emul8 16) 16 = true →
      (s.elementsOk .store 16 s.vlN (s.maskOn vm) (unitAddr s rs1 2) →
        ∃ t, exec (.vse16V vs3 rs1 vm) s = .next t ∧ StoreDone s t vs3 16 s.vlN (s.maskOn vm) (unitAddr s rs1 2)) ∧
      (s.elementsOk .store 16 s.vlN (s.maskOn vm) (stridedAddr s rs1 rs2) →
        ∃ t, exec (.vsse16V vs3 rs1 rs2 vm) s = .next t ∧
          StoreDone s t vs3 16 s.vlN (s.maskOn vm) (stridedAddr s rs1 rs2))) ∧
    (groupOk s.cfg vs3 (s.emul8 32) 32 = true →
      (s.elementsOk .store 32 s.vlN (s.maskOn vm) (unitAddr s rs1 4) →
        ∃ t, exec (.vse32V vs3 rs1 vm) s = .next t ∧ StoreDone s t vs3 32 s.vlN (s.maskOn vm) (unitAddr s rs1 4)) ∧
      (s.elementsOk .store 32 s.vlN (s.maskOn vm) (stridedAddr s rs1 rs2) →
        ∃ t, exec (.vsse32V vs3 rs1 rs2 vm) s = .next t ∧
          StoreDone s t vs3 32 s.vlN (s.maskOn vm) (stridedAddr s rs1 rs2))) ∧
    (groupOk s.cfg vs3 (s.emul8 64) 64 = true →
      (s.elementsOk .store 64 s.vlN (s.maskOn vm) (unitAddr s rs1 8) →
        ∃ t, exec (.vse64V vs3 rs1 vm) s = .next t ∧ StoreDone s t vs3 64 s.vlN (s.maskOn vm) (unitAddr s rs1 8)) ∧
      (s.elementsOk .store 64 s.vlN (s.maskOn vm) (stridedAddr s rs1 rs2) →
        ∃ t, exec (.vsse64V vs3 rs1 rs2 vm) s = .next t ∧
          StoreDone s t vs3 64 s.vlN (s.maskOn vm) (stridedAddr s rs1 rs2)))

/-- The indexed stores, where the checks of R312 pass and every active element's access does not stop, complete: every
byte outside the bytes of the active elements, of width SEW at x[rs1] plus the unsigned element of vs2, reads as
before, every byte inside is that byte of one of the elements that write it, and for the ordered form that of the
highest-indexed one; no register changes but vstart, VS and pc. vs3 and vs2 may overlap in any way. (R62, R72, R310,
R311, R312, R322, R323, R325, R326, R327, R329) -/
def Obligations.IndexedStoreResult : Prop :=
  ∀ (s : State) (vs3 rs1 vs2 : RegNo) (vm : Bool), s.sized → s.memReady → groupOk s.cfg vs3 s.lmul8 s.sew = true →
    let highestWins := fun (t : State) (addr : Nat → XWord) =>
      ∀ i k, s.vstartN ≤ i → i < s.vlN → s.maskOn vm i = true → k < s.sew / 8 →
        (∀ j, i < j → j < s.vlN → s.maskOn vm j = true → ∀ l < s.sew / 8,
          ((addr i).toNat + k) % 2 ^ s.cfg.xbits ≠ ((addr j).toNat + l) % 2 ^ s.cfg.xbits) →
        Mem.read t.mem (((addr i).toNat + k) % 2 ^ s.cfg.xbits) = byteOf (s.elem vs3 s.sew i) k
    (groupOk s.cfg vs2 (s.emul8 8) 8 = true → s.elementsOk .store s.sew s.vlN (s.maskOn vm) (indexedAddr s rs1 vs2 8) →
      (∃ t, exec (.vsuxei8V vs3 rs1 vs2 vm) s = .next t ∧ StoreDone s t vs3 s.sew s.vlN (s.maskOn vm) (indexedAddr s rs1 vs2 8)) ∧
      ∃ t, exec (.vsoxei8V vs3 rs1 vs2 vm) s = .next t ∧ StoreDone s t vs3 s.sew s.vlN (s.maskOn vm) (indexedAddr s rs1 vs2 8) ∧
        highestWins t (indexedAddr s rs1 vs2 8)) ∧
    (groupOk s.cfg vs2 (s.emul8 16) 16 = true → s.elementsOk .store s.sew s.vlN (s.maskOn vm) (indexedAddr s rs1 vs2 16) →
      (∃ t, exec (.vsuxei16V vs3 rs1 vs2 vm) s = .next t ∧ StoreDone s t vs3 s.sew s.vlN (s.maskOn vm) (indexedAddr s rs1 vs2 16)) ∧
      ∃ t, exec (.vsoxei16V vs3 rs1 vs2 vm) s = .next t ∧ StoreDone s t vs3 s.sew s.vlN (s.maskOn vm) (indexedAddr s rs1 vs2 16) ∧
        highestWins t (indexedAddr s rs1 vs2 16)) ∧
    (groupOk s.cfg vs2 (s.emul8 32) 32 = true → s.elementsOk .store s.sew s.vlN (s.maskOn vm) (indexedAddr s rs1 vs2 32) →
      (∃ t, exec (.vsuxei32V vs3 rs1 vs2 vm) s = .next t ∧ StoreDone s t vs3 s.sew s.vlN (s.maskOn vm) (indexedAddr s rs1 vs2 32)) ∧
      ∃ t, exec (.vsoxei32V vs3 rs1 vs2 vm) s = .next t ∧ StoreDone s t vs3 s.sew s.vlN (s.maskOn vm) (indexedAddr s rs1 vs2 32) ∧
        highestWins t (indexedAddr s rs1 vs2 32)) ∧
    (groupOk s.cfg vs2 (s.emul8 64) 64 = true → s.elementsOk .store s.sew s.vlN (s.maskOn vm) (indexedAddr s rs1 vs2 64) →
      (∃ t, exec (.vsuxei64V vs3 rs1 vs2 vm) s = .next t ∧ StoreDone s t vs3 s.sew s.vlN (s.maskOn vm) (indexedAddr s rs1 vs2 64)) ∧
      ∃ t, exec (.vsoxei64V vs3 rs1 vs2 vm) s = .next t ∧ StoreDone s t vs3 s.sew s.vlN (s.maskOn vm) (indexedAddr s rs1 vs2 64) ∧
        highestWins t (indexedAddr s rs1 vs2 64))

/-- vsm.v, where the vector unit is on, vill is 0 and every byte's access does not stop, stores bytes vstart to
ceil(vl/8)-1 of vs3 at x[rs1] upward; vs1r, vs2r, vs4r and vs8r, where the vector unit is on and vs3 is a multiple
of n, store bytes vstart to n*VLEN/8 - 1 of the n registers, whatever vtype, vill and vl hold. Every other byte of
memory reads as before and no vector or x register, vl or vtype changes. (R29, R32, R331, R332, R333, R334, R335,
R336) -/
def Obligations.MaskAndWholeStoreResult : Prop :=
  ∀ (s : State) (vs3 rs1 : RegNo), s.vsEnabled = true →
    (s.vill = false → s.elementsOk .store 8 ((s.vlN + 7) / 8) (fun _ => true) (unitAddr s rs1 1) →
      ∃ t, exec (.vsmV vs3 rs1) s = .next t ∧
        StoreDone s t vs3 8 ((s.vlN + 7) / 8) (fun _ => true) (unitAddr s rs1 1)) ∧
    (vs3.toNat % 1 = 0 → s.elementsOk .store 8 (1 * s.cfg.vlen / 8) (fun _ => true) (unitAddr s rs1 1) →
      ∃ t, exec (.vs1rV vs3 rs1) s = .next t ∧
        StoreDone s t vs3 8 (1 * s.cfg.vlen / 8) (fun _ => true) (unitAddr s rs1 1)) ∧
    (vs3.toNat % 2 = 0 → s.elementsOk .store 8 (2 * s.cfg.vlen / 8) (fun _ => true) (unitAddr s rs1 1) →
      ∃ t, exec (.vs2rV vs3 rs1) s = .next t ∧
        StoreDone s t vs3 8 (2 * s.cfg.vlen / 8) (fun _ => true) (unitAddr s rs1 1)) ∧
    (vs3.toNat % 4 = 0 → s.elementsOk .store 8 (4 * s.cfg.vlen / 8) (fun _ => true) (unitAddr s rs1 1) →
      ∃ t, exec (.vs4rV vs3 rs1) s = .next t ∧
        StoreDone s t vs3 8 (4 * s.cfg.vlen / 8) (fun _ => true) (unitAddr s rs1 1)) ∧
    (vs3.toNat % 8 = 0 → s.elementsOk .store 8 (8 * s.cfg.vlen / 8) (fun _ => true) (unitAddr s rs1 1) →
      ∃ t, exec (.vs8rV vs3 rs1) s = .next t ∧
        StoreDone s t vs3 8 (8 * s.cfg.vlen / 8) (fun _ => true) (unitAddr s rs1 1))

/-- For every store. The unit-stride, strided and indexed stores, where the checks of R312 pass and i is the lowest-
indexed active element whose access raises: the exception is taken with that access's cause and trap value, vstart
is i, every active element below i is stored, element i is not, an active element above i may be stored only if its
own access would not stop, every other byte of memory reads as before, and no vector or x register, vl or vtype
changes. vsm.v, where the vector unit is on and vill is 0, and vs1r, vs2r, vs4r and vs8r, where the vector unit is
on and vs3 is a multiple of n, whatever vtype, vill and vl hold, trap so at their byte i, and never for
misalignment. What an access raises: under misaligned_policy trap a misaligned one raises store-address-misaligned
with the element's address, whatever the platform answers; any other one raises store access fault or store page
fault as mem_admits answers access_fault or page_fault, with the element's address, or, where it is misaligned and
performed, that of the first byte refused by itself (or the element's where none is; DEDUCED, log 23). (R65, R69,
R312, R313, R331, R332, R351, R353, R356, R357, R360, 92_eei_decisions D28) -/
def Obligations.StoreTrapsAtElement : Prop :=
  ∀ (s : State) (vs3 rs1 r2 : RegNo) (vm : Bool) (i : Nat) (c : Cause) (tval : XWord),
    (s.sized → s.memReady →
    (groupOk s.cfg vs3 (s.emul8 8) 8 = true →
      (s.raisesAt .store 8 s.vlN (s.maskOn vm) (unitAddr s rs1 1) i c tval →
        ∃ t, exec (.vse8V vs3 rs1 vm) s = .next t ∧ StoreTrapped s t vs3 8 s.vlN (s.maskOn vm) (unitAddr s rs1 1) i c tval) ∧
      (s.raisesAt .store 8 s.vlN (s.maskOn vm) (stridedAddr s rs1 r2) i c tval →
        ∃ t, exec (.vsse8V vs3 rs1 r2 vm) s = .next t ∧ StoreTrapped s t vs3 8 s.vlN (s.maskOn vm) (stridedAddr s rs1 r2) i c tval)) ∧
    (groupOk s.cfg vs3 s.lmul8 s.sew = true → groupOk s.cfg r2 (s.emul8 8) 8 = true →
      s.raisesAt .store s.sew s.vlN (s.maskOn vm) (indexedAddr s rs1 r2 8) i c tval →
      (∃ t, exec (.vsuxei8V vs3 rs1 r2 vm) s = .next t ∧ StoreTrapped s t vs3 s.sew s.vlN (s.maskOn vm) (indexedAddr s rs1 r2 8) i c tval) ∧
      ∃ t, exec (.vsoxei8V vs3 rs1 r2 vm) s = .next t ∧ StoreTrapped s t vs3 s.sew s.vlN (s.maskOn vm) (indexedAddr s rs1 r2 8) i c tval) ∧
    (groupOk s.cfg vs3 (s.emul8 16) 16 = true →
      (s.raisesAt .store 16 s.vlN (s.maskOn vm) (unitAddr s rs1 2) i c tval →
        ∃ t, exec (.vse16V vs3 rs1 vm) s = .next t ∧ StoreTrapped s t vs3 16 s.vlN (s.maskOn vm) (unitAddr s rs1 2) i c tval) ∧
      (s.raisesAt .store 16 s.vlN (s.maskOn vm) (stridedAddr s rs1 r2) i c tval →
        ∃ t, exec (.vsse16V vs3 rs1 r2 vm) s = .next t ∧ StoreTrapped s t vs3 16 s.vlN (s.maskOn vm) (stridedAddr s rs1 r2) i c tval)) ∧
    (groupOk s.cfg vs3 s.lmul8 s.sew = true → groupOk s.cfg r2 (s.emul8 16) 16 = true →
      s.raisesAt .store s.sew s.vlN (s.maskOn vm) (indexedAddr s rs1 r2 16) i c tval →
      (∃ t, exec (.vsuxei16V vs3 rs1 r2 vm) s = .next t ∧ StoreTrapped s t vs3 s.sew s.vlN (s.maskOn vm) (indexedAddr s rs1 r2 16) i c tval) ∧
      ∃ t, exec (.vsoxei16V vs3 rs1 r2 vm) s = .next t ∧ StoreTrapped s t vs3 s.sew s.vlN (s.maskOn vm) (indexedAddr s rs1 r2 16) i c tval) ∧
    (groupOk s.cfg vs3 (s.emul8 32) 32 = true →
      (s.raisesAt .store 32 s.vlN (s.maskOn vm) (unitAddr s rs1 4) i c tval →
        ∃ t, exec (.vse32V vs3 rs1 vm) s = .next t ∧ StoreTrapped s t vs3 32 s.vlN (s.maskOn vm) (unitAddr s rs1 4) i c tval) ∧
      (s.raisesAt .store 32 s.vlN (s.maskOn vm) (stridedAddr s rs1 r2) i c tval →
        ∃ t, exec (.vsse32V vs3 rs1 r2 vm) s = .next t ∧ StoreTrapped s t vs3 32 s.vlN (s.maskOn vm) (stridedAddr s rs1 r2) i c tval)) ∧
    (groupOk s.cfg vs3 s.lmul8 s.sew = true → groupOk s.cfg r2 (s.emul8 32) 32 = true →
      s.raisesAt .store s.sew s.vlN (s.maskOn vm) (indexedAddr s rs1 r2 32) i c tval →
      (∃ t, exec (.vsuxei32V vs3 rs1 r2 vm) s = .next t ∧ StoreTrapped s t vs3 s.sew s.vlN (s.maskOn vm) (indexedAddr s rs1 r2 32) i c tval) ∧
      ∃ t, exec (.vsoxei32V vs3 rs1 r2 vm) s = .next t ∧ StoreTrapped s t vs3 s.sew s.vlN (s.maskOn vm) (indexedAddr s rs1 r2 32) i c tval) ∧
    (groupOk s.cfg vs3 (s.emul8 64) 64 = true →
      (s.raisesAt .store 64 s.vlN (s.maskOn vm) (unitAddr s rs1 8) i c tval →
        ∃ t, exec (.vse64V vs3 rs1 vm) s = .next t ∧ StoreTrapped s t vs3 64 s.vlN (s.maskOn vm) (unitAddr s rs1 8) i c tval) ∧
      (s.raisesAt .store 64 s.vlN (s.maskOn vm) (stridedAddr s rs1 r2) i c tval →
        ∃ t, exec (.vsse64V vs3 rs1 r2 vm) s = .next t ∧ StoreTrapped s t vs3 64 s.vlN (s.maskOn vm) (stridedAddr s rs1 r2) i c tval)) ∧
    (groupOk s.cfg vs3 s.lmul8 s.sew = true → groupOk s.cfg r2 (s.emul8 64) 64 = true →
      s.raisesAt .store s.sew s.vlN (s.maskOn vm) (indexedAddr s rs1 r2 64) i c tval →
      (∃ t, exec (.vsuxei64V vs3 rs1 r2 vm) s = .next t ∧ StoreTrapped s t vs3 s.sew s.vlN (s.maskOn vm) (indexedAddr s rs1 r2 64) i c tval) ∧
      ∃ t, exec (.vsoxei64V vs3 rs1 r2 vm) s = .next t ∧ StoreTrapped s t vs3 s.sew s.vlN (s.maskOn vm) (indexedAddr s rs1 r2 64) i c tval)) ∧
    (∀ (a : XWord) (n : Nat) (e : Cause) (v : XWord),
      (checkAccess s.cfg .store a n = none ↔ s.accessOk .store a n) ∧
        (checkAccess s.cfg .store a n = some (.raises e v) ↔ s.accessRaises .store a n e v) ∧
        (s.cfg.misaligned = .trap → a.toNat % n ≠ 0 →
          checkAccess s.cfg .store a n = some (.raises .storeAddressMisaligned a)) ∧
        (s.cfg.misaligned = .perform ∨ a.toNat % n = 0 → s.refusedAt .store a n v →
          (memAdmits s.cfg a.toNat n .store = .accessFault →
            checkAccess s.cfg .store a n = some (.raises .storeAccessFault v)) ∧
          (memAdmits s.cfg a.toNat n .store = .pageFault →
            checkAccess s.cfg .store a n = some (.raises .storePageFault v)))) ∧
    (s.vsEnabled = true → s.vill = false →
      s.raisesAt .store 8 ((s.vlN + 7) / 8) (fun _ => true) (unitAddr s rs1 1) i c tval → c ≠ .storeAddressMisaligned ∧
      ∃ t, exec (.vsmV vs3 rs1) s = .next t ∧
        StoreTrapped s t vs3 8 ((s.vlN + 7) / 8) (fun _ => true) (unitAddr s rs1 1) i c tval) ∧
    (s.vsEnabled = true →
      let wholeTraps := fun (n : Nat) (insn : Instr) => vs3.toNat % n = 0 →
        s.raisesAt .store 8 (n * s.cfg.vlen / 8) (fun _ => true) (unitAddr s rs1 1) i c tval → c ≠ .storeAddressMisaligned ∧
        ∃ t, exec insn s = .next t ∧
          StoreTrapped s t vs3 8 (n * s.cfg.vlen / 8) (fun _ => true) (unitAddr s rs1 1) i c tval
      wholeTraps 1 (.vs1rV vs3 rs1) ∧ wholeTraps 2 (.vs2rV vs3 rs1) ∧ wholeTraps 4 (.vs4rV vs3 rs1) ∧
      wholeTraps 8 (.vs8rV vs3 rs1))

/-- For every load and store of the table, where its own checks (R252, R312, R289, R290, R331, R332) pass and the
lowest-indexed active element whose access does not go ahead is aligned (or performed) and admitted but not to
idempotent main memory, the instruction is refused by name with the address of that element, in its own addressing
mode and width: the spec gives such an access no meaning (R71; log 24). That the refusal at this element comes
before an exception that a higher-indexed element would raise is the model's choice (DEDUCED, log 37): nothing is
assumed of the elements above it. A fault-only-first load is refused too, unless, under the policy may_trim and past
element 0, it draws a limit at or below that element (R284 (d)): it then completes with that vl. (R71, R252, R284,
R289, R290, R312, R331, R332, 92_eei_decisions D6, 93_implementation_defined U17) -/
def Obligations.NonMainMemoryRefused : Prop :=
  ∀ (s : State) (r rs1 r2 : RegNo) (vm : Bool) (i : Nat), s.sized →
    let stops := fun (k : AccessKind) (W body : Nat) (on : Nat → Bool) (addr : Nat → XWord) (insn : Instr) =>
      s.outsideAt k W body on addr i → exec insn s = .refused (.notMainMemory (addr i))
    let wholeStops := fun (n w : Nat) (insn : Instr) => w ≤ s.cfg.elen →
      stops .load w (n * s.cfg.vlen / w) (fun _ => true) (unitAddr s rs1 (w / 8)) insn
    let ffStops := fun (w : Nat) (insn : Instr) =>
      s.outsideAt .load w s.vlN (s.maskOn vm) (unitAddr s rs1 (w / 8)) i →
        exec insn s = .refused (.notMainMemory (unitAddr s rs1 (w / 8) i)) ∨
          (s.cfg.ffTrim = .mayTrim ∧ 0 < i ∧ ∃ n, 1 ≤ n ∧ s.vstartN ≤ n ∧ n ≤ i ∧ ∃ t, exec insn s = .next t ∧
            FirstDone s t r w n (s.maskOn vm) (unitAddr s rs1 (w / 8)))
    (s.memReady → groupOk s.cfg r (s.emul8 8) 8 = true →
      ((vm = true ∨ r ≠ 0#5) →
        stops .load 8 s.vlN (s.maskOn vm) (unitAddr s rs1 1) (.vle8V r rs1 vm) ∧
        stops .load 8 s.vlN (s.maskOn vm) (stridedAddr s rs1 r2) (.vlse8V r rs1 r2 vm) ∧
        ffStops 8 (.vle8ffV r rs1 vm)) ∧
      stops .store 8 s.vlN (s.maskOn vm) (unitAddr s rs1 1) (.vse8V r rs1 vm) ∧
      stops .store 8 s.vlN (s.maskOn vm) (stridedAddr s rs1 r2) (.vsse8V r rs1 r2 vm)) ∧
    (s.memReady → groupOk s.cfg r s.lmul8 s.sew = true → groupOk s.cfg r2 (s.emul8 8) 8 = true →
      ((vm = true ∨ r ≠ 0#5) → overlapOk r s.sew s.lmul8 r2 8 (s.emul8 8) = true →
        stops .load s.sew s.vlN (s.maskOn vm) (indexedAddr s rs1 r2 8) (.vluxei8V r rs1 r2 vm) ∧
        stops .load s.sew s.vlN (s.maskOn vm) (indexedAddr s rs1 r2 8) (.vloxei8V r rs1 r2 vm)) ∧
      stops .store s.sew s.vlN (s.maskOn vm) (indexedAddr s rs1 r2 8) (.vsuxei8V r rs1 r2 vm) ∧
      stops .store s.sew s.vlN (s.maskOn vm) (indexedAddr s rs1 r2 8) (.vsoxei8V r rs1 r2 vm)) ∧
    (s.memReady → groupOk s.cfg r (s.emul8 16) 16 = true →
      ((vm = true ∨ r ≠ 0#5) →
        stops .load 16 s.vlN (s.maskOn vm) (unitAddr s rs1 2) (.vle16V r rs1 vm) ∧
        stops .load 16 s.vlN (s.maskOn vm) (stridedAddr s rs1 r2) (.vlse16V r rs1 r2 vm) ∧
        ffStops 16 (.vle16ffV r rs1 vm)) ∧
      stops .store 16 s.vlN (s.maskOn vm) (unitAddr s rs1 2) (.vse16V r rs1 vm) ∧
      stops .store 16 s.vlN (s.maskOn vm) (stridedAddr s rs1 r2) (.vsse16V r rs1 r2 vm)) ∧
    (s.memReady → groupOk s.cfg r s.lmul8 s.sew = true → groupOk s.cfg r2 (s.emul8 16) 16 = true →
      ((vm = true ∨ r ≠ 0#5) → overlapOk r s.sew s.lmul8 r2 16 (s.emul8 16) = true →
        stops .load s.sew s.vlN (s.maskOn vm) (indexedAddr s rs1 r2 16) (.vluxei16V r rs1 r2 vm) ∧
        stops .load s.sew s.vlN (s.maskOn vm) (indexedAddr s rs1 r2 16) (.vloxei16V r rs1 r2 vm)) ∧
      stops .store s.sew s.vlN (s.maskOn vm) (indexedAddr s rs1 r2 16) (.vsuxei16V r rs1 r2 vm) ∧
      stops .store s.sew s.vlN (s.maskOn vm) (indexedAddr s rs1 r2 16) (.vsoxei16V r rs1 r2 vm)) ∧
    (s.memReady → groupOk s.cfg r (s.emul8 32) 32 = true →
      ((vm = true ∨ r ≠ 0#5) →
        stops .load 32 s.vlN (s.maskOn vm) (unitAddr s rs1 4) (.vle32V r rs1 vm) ∧
        stops .load 32 s.vlN (s.maskOn vm) (stridedAddr s rs1 r2) (.vlse32V r rs1 r2 vm) ∧
        ffStops 32 (.vle32ffV r rs1 vm)) ∧
      stops .store 32 s.vlN (s.maskOn vm) (unitAddr s rs1 4) (.vse32V r rs1 vm) ∧
      stops .store 32 s.vlN (s.maskOn vm) (stridedAddr s rs1 r2) (.vsse32V r rs1 r2 vm)) ∧
    (s.memReady → groupOk s.cfg r s.lmul8 s.sew = true → groupOk s.cfg r2 (s.emul8 32) 32 = true →
      ((vm = true ∨ r ≠ 0#5) → overlapOk r s.sew s.lmul8 r2 32 (s.emul8 32) = true →
        stops .load s.sew s.vlN (s.maskOn vm) (indexedAddr s rs1 r2 32) (.vluxei32V r rs1 r2 vm) ∧
        stops .load s.sew s.vlN (s.maskOn vm) (indexedAddr s rs1 r2 32) (.vloxei32V r rs1 r2 vm)) ∧
      stops .store s.sew s.vlN (s.maskOn vm) (indexedAddr s rs1 r2 32) (.vsuxei32V r rs1 r2 vm) ∧
      stops .store s.sew s.vlN (s.maskOn vm) (indexedAddr s rs1 r2 32) (.vsoxei32V r rs1 r2 vm)) ∧
    (s.memReady → groupOk s.cfg r (s.emul8 64) 64 = true →
      ((vm = true ∨ r ≠ 0#5) →
        stops .load 64 s.vlN (s.maskOn vm) (unitAddr s rs1 8) (.vle64V r rs1 vm) ∧
        stops .load 64 s.vlN (s.maskOn vm) (stridedAddr s rs1 r2) (.vlse64V r rs1 r2 vm) ∧
        ffStops 64 (.vle64ffV r rs1 vm)) ∧
      stops .store 64 s.vlN (s.maskOn vm) (unitAddr s rs1 8) (.vse64V r rs1 vm) ∧
      stops .store 64 s.vlN (s.maskOn vm) (stridedAddr s rs1 r2) (.vsse64V r rs1 r2 vm)) ∧
    (s.memReady → groupOk s.cfg r s.lmul8 s.sew = true → groupOk s.cfg r2 (s.emul8 64) 64 = true →
      ((vm = true ∨ r ≠ 0#5) → overlapOk r s.sew s.lmul8 r2 64 (s.emul8 64) = true →
        stops .load s.sew s.vlN (s.maskOn vm) (indexedAddr s rs1 r2 64) (.vluxei64V r rs1 r2 vm) ∧
        stops .load s.sew s.vlN (s.maskOn vm) (indexedAddr s rs1 r2 64) (.vloxei64V r rs1 r2 vm)) ∧
      stops .store s.sew s.vlN (s.maskOn vm) (indexedAddr s rs1 r2 64) (.vsuxei64V r rs1 r2 vm) ∧
      stops .store s.sew s.vlN (s.maskOn vm) (indexedAddr s rs1 r2 64) (.vsoxei64V r rs1 r2 vm)) ∧
    (s.vsEnabled = true → s.vill = false →
      stops .load 8 ((s.vlN + 7) / 8) (fun _ => true) (unitAddr s rs1 1) (.vlmV r rs1) ∧
      stops .store 8 ((s.vlN + 7) / 8) (fun _ => true) (unitAddr s rs1 1) (.vsmV r rs1)) ∧
    (s.vsEnabled = true → r.toNat % 1 = 0 →
      wholeStops 1 8 (.vl1re8V r rs1) ∧
      wholeStops 1 16 (.vl1re16V r rs1) ∧
      wholeStops 1 32 (.vl1re32V r rs1) ∧
      wholeStops 1 64 (.vl1re64V r rs1) ∧
      stops .store 8 (1 * s.cfg.vlen / 8) (fun _ => true) (unitAddr s rs1 1) (.vs1rV r rs1)) ∧
    (s.vsEnabled = true → r.toNat % 2 = 0 →
      wholeStops 2 8 (.vl2re8V r rs1) ∧
      wholeStops 2 16 (.vl2re16V r rs1) ∧
      wholeStops 2 32 (.vl2re32V r rs1) ∧
      wholeStops 2 64 (.vl2re64V r rs1) ∧
      stops .store 8 (2 * s.cfg.vlen / 8) (fun _ => true) (unitAddr s rs1 1) (.vs2rV r rs1)) ∧
    (s.vsEnabled = true → r.toNat % 4 = 0 →
      wholeStops 4 8 (.vl4re8V r rs1) ∧
      wholeStops 4 16 (.vl4re16V r rs1) ∧
      wholeStops 4 32 (.vl4re32V r rs1) ∧
      wholeStops 4 64 (.vl4re64V r rs1) ∧
      stops .store 8 (4 * s.cfg.vlen / 8) (fun _ => true) (unitAddr s rs1 1) (.vs4rV r rs1)) ∧
    (s.vsEnabled = true → r.toNat % 8 = 0 →
      wholeStops 8 8 (.vl8re8V r rs1) ∧
      wholeStops 8 16 (.vl8re16V r rs1) ∧
      wholeStops 8 32 (.vl8re32V r rs1) ∧
      wholeStops 8 64 (.vl8re64V r rs1) ∧
      stops .store 8 (8 * s.cfg.vlen / 8) (fun _ => true) (unitAddr s rs1 1) (.vs8rV r rs1))

/-- Unit-stride: x[rs1] + i*(w/8); strided: x[rs1] + i*x[rs2]; indexed: x[rs1] plus element i of vs2 taken as unsigned;
each modulo 2^XLEN. The stride, being taken modulo 2^XLEN, may be negative. (R78) -/
def Obligations.AddressArithmetic : Prop :=
  ∀ (s : State) (rs1 rs2 vs2 : RegNo) (bytes w i : Nat),
    (unitAddr s rs1 bytes i).toNat = ((s.readX rs1).toNat + i * bytes) % 2 ^ s.cfg.xbits ∧
      (stridedAddr s rs1 rs2 i).toNat = ((s.readX rs1).toNat + i * (s.readX rs2).toNat) % 2 ^ s.cfg.xbits ∧
      (indexedAddr s rs1 vs2 w i).toNat = ((s.readX rs1).toNat + (s.elem vs2 w i).toNat) % 2 ^ s.cfg.xbits

/-- For every width W a multiple of 8 bits of at most 2^XLEN bytes: byte k of the element read at address a is the byte
at a + k (modulo 2^XLEN); after the bytes of a value are stored at a, the element read there is that value, and
every other byte reads as before. (R15, R62, R73) -/
def Obligations.LittleEndianMemory : Prop :=
  ∀ (s : State) (W : Nat) (a : XWord) (val : BitVec W), 8 ∣ W → W / 8 ≤ 2 ^ s.cfg.xbits →
    (∀ k < W / 8, byteOf (loadElem s W a) k = Mem.read s.mem ((a.toNat + k) % 2 ^ s.cfg.xbits)) ∧
      loadElem (s.storeBytes (elemBytes s.cfg a val)) W a = val ∧
      ∀ x, (∀ k < W / 8, x ≠ (a.toNat + k) % 2 ^ s.cfg.xbits) →
        Mem.read (s.storeBytes (elemBytes s.cfg a val)).mem x = Mem.read s.mem x
end

