-- ==== Sys2Proof/Laws/State.lean ====
section
/-! SUPPORT. What each named update does to each field of the state, so that no proof unfolds a record update. -/

namespace Sys2Proof.Machine

open Sys2Proof.Config

/-! ### `complete` -/

@[simp] theorem State.complete_cfg (s : State) : (s.complete).cfg = s.cfg := rfl
@[simp] theorem State.complete_x (s : State) : (s.complete).x = s.x := rfl
@[simp] theorem State.complete_pc (s : State) : (s.complete).pc = truncX s.cfg (s.pc + 4) := rfl
@[simp] theorem State.complete_v (s : State) : (s.complete).v = s.v := rfl
@[simp] theorem State.complete_vstart (s : State) : (s.complete).vstart = 0 := rfl
@[simp] theorem State.complete_vxsat (s : State) : (s.complete).vxsat = s.vxsat := rfl
@[simp] theorem State.complete_vxrm (s : State) : (s.complete).vxrm = s.vxrm := rfl
@[simp] theorem State.complete_vl (s : State) : (s.complete).vl = s.vl := rfl
@[simp] theorem State.complete_vtype (s : State) : (s.complete).vtype = s.vtype := rfl
@[simp] theorem State.complete_priv (s : State) : (s.complete).priv = s.priv := rfl
@[simp] theorem State.complete_mstatus (s : State) : (s.complete).mstatus = { s.mstatus with vs := .dirty } := rfl
@[simp] theorem State.complete_misa (s : State) : (s.complete).misa = s.misa := rfl
@[simp] theorem State.complete_mepc (s : State) : (s.complete).mepc = s.mepc := rfl
@[simp] theorem State.complete_mcause (s : State) : (s.complete).mcause = s.mcause := rfl
@[simp] theorem State.complete_mtval (s : State) : (s.complete).mtval = s.mtval := rfl
@[simp] theorem State.complete_mtvec (s : State) : (s.complete).mtvec = s.mtvec := rfl
@[simp] theorem State.complete_medeleg (s : State) : (s.complete).medeleg = s.medeleg := rfl
@[simp] theorem State.complete_sepc (s : State) : (s.complete).sepc = s.sepc := rfl
@[simp] theorem State.complete_scause (s : State) : (s.complete).scause = s.scause := rfl
@[simp] theorem State.complete_stval (s : State) : (s.complete).stval = s.stval := rfl
@[simp] theorem State.complete_stvec (s : State) : (s.complete).stvec = s.stvec := rfl
@[simp] theorem State.complete_mem (s : State) : (s.complete).mem = s.mem := rfl
@[simp] theorem State.complete_unsynced (s : State) : (s.complete).unsynced = s.unsynced := rfl
@[simp] theorem State.complete_report (s : State) : (s.complete).report = none := rfl
@[simp] theorem State.complete_draws (s : State) : (s.complete).draws = s.draws + 1 := rfl

/-! ### `markDirty` -/

@[simp] theorem State.markDirty_cfg (s : State) : (s.markDirty).cfg = s.cfg := rfl
@[simp] theorem State.markDirty_x (s : State) : (s.markDirty).x = s.x := rfl
@[simp] theorem State.markDirty_pc (s : State) : (s.markDirty).pc = s.pc := rfl
@[simp] theorem State.markDirty_v (s : State) : (s.markDirty).v = s.v := rfl
@[simp] theorem State.markDirty_vstart (s : State) : (s.markDirty).vstart = s.vstart := rfl
@[simp] theorem State.markDirty_vxsat (s : State) : (s.markDirty).vxsat = s.vxsat := rfl
@[simp] theorem State.markDirty_vxrm (s : State) : (s.markDirty).vxrm = s.vxrm := rfl
@[simp] theorem State.markDirty_vl (s : State) : (s.markDirty).vl = s.vl := rfl
@[simp] theorem State.markDirty_vtype (s : State) : (s.markDirty).vtype = s.vtype := rfl
@[simp] theorem State.markDirty_priv (s : State) : (s.markDirty).priv = s.priv := rfl
@[simp] theorem State.markDirty_mstatus (s : State) : (s.markDirty).mstatus = { s.mstatus with vs := .dirty } := rfl
@[simp] theorem State.markDirty_misa (s : State) : (s.markDirty).misa = s.misa := rfl
@[simp] theorem State.markDirty_mepc (s : State) : (s.markDirty).mepc = s.mepc := rfl
@[simp] theorem State.markDirty_mcause (s : State) : (s.markDirty).mcause = s.mcause := rfl
@[simp] theorem State.markDirty_mtval (s : State) : (s.markDirty).mtval = s.mtval := rfl
@[simp] theorem State.markDirty_mtvec (s : State) : (s.markDirty).mtvec = s.mtvec := rfl
@[simp] theorem State.markDirty_medeleg (s : State) : (s.markDirty).medeleg = s.medeleg := rfl
@[simp] theorem State.markDirty_sepc (s : State) : (s.markDirty).sepc = s.sepc := rfl
@[simp] theorem State.markDirty_scause (s : State) : (s.markDirty).scause = s.scause := rfl
@[simp] theorem State.markDirty_stval (s : State) : (s.markDirty).stval = s.stval := rfl
@[simp] theorem State.markDirty_stvec (s : State) : (s.markDirty).stvec = s.stvec := rfl
@[simp] theorem State.markDirty_mem (s : State) : (s.markDirty).mem = s.mem := rfl
@[simp] theorem State.markDirty_unsynced (s : State) : (s.markDirty).unsynced = s.unsynced := rfl
@[simp] theorem State.markDirty_report (s : State) : (s.markDirty).report = s.report := rfl
@[simp] theorem State.markDirty_draws (s : State) : (s.markDirty).draws = s.draws := rfl

/-! ### `storeBytes` -/

@[simp] theorem State.storeBytes_cfg (s : State) (ws : List (Nat × Byte)) : (s.storeBytes ws).cfg = s.cfg := rfl
@[simp] theorem State.storeBytes_x (s : State) (ws : List (Nat × Byte)) : (s.storeBytes ws).x = s.x := rfl
@[simp] theorem State.storeBytes_pc (s : State) (ws : List (Nat × Byte)) : (s.storeBytes ws).pc = s.pc := rfl
@[simp] theorem State.storeBytes_v (s : State) (ws : List (Nat × Byte)) : (s.storeBytes ws).v = s.v := rfl
@[simp] theorem State.storeBytes_vstart (s : State) (ws : List (Nat × Byte)) : (s.storeBytes ws).vstart = s.vstart := rfl
@[simp] theorem State.storeBytes_vxsat (s : State) (ws : List (Nat × Byte)) : (s.storeBytes ws).vxsat = s.vxsat := rfl
@[simp] theorem State.storeBytes_vxrm (s : State) (ws : List (Nat × Byte)) : (s.storeBytes ws).vxrm = s.vxrm := rfl
@[simp] theorem State.storeBytes_vl (s : State) (ws : List (Nat × Byte)) : (s.storeBytes ws).vl = s.vl := rfl
@[simp] theorem State.storeBytes_vtype (s : State) (ws : List (Nat × Byte)) : (s.storeBytes ws).vtype = s.vtype := rfl
@[simp] theorem State.storeBytes_priv (s : State) (ws : List (Nat × Byte)) : (s.storeBytes ws).priv = s.priv := rfl
@[simp] theorem State.storeBytes_mstatus (s : State) (ws : List (Nat × Byte)) : (s.storeBytes ws).mstatus = s.mstatus := rfl
@[simp] theorem State.storeBytes_misa (s : State) (ws : List (Nat × Byte)) : (s.storeBytes ws).misa = s.misa := rfl
@[simp] theorem State.storeBytes_mepc (s : State) (ws : List (Nat × Byte)) : (s.storeBytes ws).mepc = s.mepc := rfl
@[simp] theorem State.storeBytes_mcause (s : State) (ws : List (Nat × Byte)) : (s.storeBytes ws).mcause = s.mcause := rfl
@[simp] theorem State.storeBytes_mtval (s : State) (ws : List (Nat × Byte)) : (s.storeBytes ws).mtval = s.mtval := rfl
@[simp] theorem State.storeBytes_mtvec (s : State) (ws : List (Nat × Byte)) : (s.storeBytes ws).mtvec = s.mtvec := rfl
@[simp] theorem State.storeBytes_medeleg (s : State) (ws : List (Nat × Byte)) : (s.storeBytes ws).medeleg = s.medeleg := rfl
@[simp] theorem State.storeBytes_sepc (s : State) (ws : List (Nat × Byte)) : (s.storeBytes ws).sepc = s.sepc := rfl
@[simp] theorem State.storeBytes_scause (s : State) (ws : List (Nat × Byte)) : (s.storeBytes ws).scause = s.scause := rfl
@[simp] theorem State.storeBytes_stval (s : State) (ws : List (Nat × Byte)) : (s.storeBytes ws).stval = s.stval := rfl
@[simp] theorem State.storeBytes_stvec (s : State) (ws : List (Nat × Byte)) : (s.storeBytes ws).stvec = s.stvec := rfl
@[simp] theorem State.storeBytes_mem (s : State) (ws : List (Nat × Byte)) : (s.storeBytes ws).mem = Mem.writes s.mem ws := rfl
@[simp] theorem State.storeBytes_unsynced (s : State) (ws : List (Nat × Byte)) : (s.storeBytes ws).unsynced = ws.foldl (fun l p => insertAddr p.1 l) s.unsynced := rfl
@[simp] theorem State.storeBytes_report (s : State) (ws : List (Nat × Byte)) : (s.storeBytes ws).report = s.report := rfl
@[simp] theorem State.storeBytes_draws (s : State) (ws : List (Nat × Byte)) : (s.storeBytes ws).draws = s.draws := rfl

/-! ### `loaded` -/

section
variable (s : State) (vd : RegNo) (W : Nat) (on : Nat → Bool) (addr : Nat → XWord) (limit body : Nat)
  (vma late vta : Bool) (n : Nat)

@[simp] theorem State.loaded_cfg :
    (s.loaded vd W on addr limit body vma late vta n).cfg = s.cfg := rfl
@[simp] theorem State.loaded_x :
    (s.loaded vd W on addr limit body vma late vta n).x = s.x := rfl
@[simp] theorem State.loaded_pc :
    (s.loaded vd W on addr limit body vma late vta n).pc = s.pc := rfl
@[simp] theorem State.loaded_v :
    (s.loaded vd W on addr limit body vma late vta n).v = writeElems s.cfg vd.toNat W (loadSlot s vd W on addr limit body vma late vta) n s.v := rfl
@[simp] theorem State.loaded_vstart :
    (s.loaded vd W on addr limit body vma late vta n).vstart = s.vstart := rfl
@[simp] theorem State.loaded_vxsat :
    (s.loaded vd W on addr limit body vma late vta n).vxsat = s.vxsat := rfl
@[simp] theorem State.loaded_vxrm :
    (s.loaded vd W on addr limit body vma late vta n).vxrm = s.vxrm := rfl
@[simp] theorem State.loaded_vl :
    (s.loaded vd W on addr limit body vma late vta n).vl = s.vl := rfl
@[simp] theorem State.loaded_vtype :
    (s.loaded vd W on addr limit body vma late vta n).vtype = s.vtype := rfl
@[simp] theorem State.loaded_priv :
    (s.loaded vd W on addr limit body vma late vta n).priv = s.priv := rfl
@[simp] theorem State.loaded_mstatus :
    (s.loaded vd W on addr limit body vma late vta n).mstatus = s.mstatus := rfl
@[simp] theorem State.loaded_misa :
    (s.loaded vd W on addr limit body vma late vta n).misa = s.misa := rfl
@[simp] theorem State.loaded_mepc :
    (s.loaded vd W on addr limit body vma late vta n).mepc = s.mepc := rfl
@[simp] theorem State.loaded_mcause :
    (s.loaded vd W on addr limit body vma late vta n).mcause = s.mcause := rfl
@[simp] theorem State.loaded_mtval :
    (s.loaded vd W on addr limit body vma late vta n).mtval = s.mtval := rfl
@[simp] theorem State.loaded_mtvec :
    (s.loaded vd W on addr limit body vma late vta n).mtvec = s.mtvec := rfl
@[simp] theorem State.loaded_medeleg :
    (s.loaded vd W on addr limit body vma late vta n).medeleg = s.medeleg := rfl
@[simp] theorem State.loaded_sepc :
    (s.loaded vd W on addr limit body vma late vta n).sepc = s.sepc := rfl
@[simp] theorem State.loaded_scause :
    (s.loaded vd W on addr limit body vma late vta n).scause = s.scause := rfl
@[simp] theorem State.loaded_stval :
    (s.loaded vd W on addr limit body vma late vta n).stval = s.stval := rfl
@[simp] theorem State.loaded_stvec :
    (s.loaded vd W on addr limit body vma late vta n).stvec = s.stvec := rfl
@[simp] theorem State.loaded_mem :
    (s.loaded vd W on addr limit body vma late vta n).mem = s.mem := rfl
@[simp] theorem State.loaded_unsynced :
    (s.loaded vd W on addr limit body vma late vta n).unsynced = s.unsynced := rfl
@[simp] theorem State.loaded_report :
    (s.loaded vd W on addr limit body vma late vta n).report = s.report := rfl
@[simp] theorem State.loaded_draws :
    (s.loaded vd W on addr limit body vma late vta n).draws = s.draws := rfl

end

/-! ### `enterM` -/

@[simp] theorem State.enterM_cfg (s : State) (c : Cause) (tval : XWord) : (s.enterM c tval).cfg = s.cfg := rfl
@[simp] theorem State.enterM_x (s : State) (c : Cause) (tval : XWord) : (s.enterM c tval).x = s.x := rfl
@[simp] theorem State.enterM_pc (s : State) (c : Cause) (tval : XWord) : (s.enterM c tval).pc = tvecBase s.cfg s.mtvec := rfl
@[simp] theorem State.enterM_v (s : State) (c : Cause) (tval : XWord) : (s.enterM c tval).v = s.v := rfl
@[simp] theorem State.enterM_vstart (s : State) (c : Cause) (tval : XWord) : (s.enterM c tval).vstart = s.vstart := rfl
@[simp] theorem State.enterM_vxsat (s : State) (c : Cause) (tval : XWord) : (s.enterM c tval).vxsat = s.vxsat := rfl
@[simp] theorem State.enterM_vxrm (s : State) (c : Cause) (tval : XWord) : (s.enterM c tval).vxrm = s.vxrm := rfl
@[simp] theorem State.enterM_vl (s : State) (c : Cause) (tval : XWord) : (s.enterM c tval).vl = s.vl := rfl
@[simp] theorem State.enterM_vtype (s : State) (c : Cause) (tval : XWord) : (s.enterM c tval).vtype = s.vtype := rfl
@[simp] theorem State.enterM_priv (s : State) (c : Cause) (tval : XWord) : (s.enterM c tval).priv = .machine := rfl
@[simp] theorem State.enterM_mstatus (s : State) (c : Cause) (tval : XWord) : (s.enterM c tval).mstatus = { s.mstatus with mpp := s.priv, mpie := s.mstatus.mie, mie := false } := rfl
@[simp] theorem State.enterM_misa (s : State) (c : Cause) (tval : XWord) : (s.enterM c tval).misa = s.misa := rfl
@[simp] theorem State.enterM_mepc (s : State) (c : Cause) (tval : XWord) : (s.enterM c tval).mepc = s.pc := rfl
@[simp] theorem State.enterM_mcause (s : State) (c : Cause) (tval : XWord) : (s.enterM c tval).mcause = BitVec.ofNat 64 c.code := rfl
@[simp] theorem State.enterM_mtval (s : State) (c : Cause) (tval : XWord) : (s.enterM c tval).mtval = tval := rfl
@[simp] theorem State.enterM_mtvec (s : State) (c : Cause) (tval : XWord) : (s.enterM c tval).mtvec = s.mtvec := rfl
@[simp] theorem State.enterM_medeleg (s : State) (c : Cause) (tval : XWord) : (s.enterM c tval).medeleg = s.medeleg := rfl
@[simp] theorem State.enterM_sepc (s : State) (c : Cause) (tval : XWord) : (s.enterM c tval).sepc = s.sepc := rfl
@[simp] theorem State.enterM_scause (s : State) (c : Cause) (tval : XWord) : (s.enterM c tval).scause = s.scause := rfl
@[simp] theorem State.enterM_stval (s : State) (c : Cause) (tval : XWord) : (s.enterM c tval).stval = s.stval := rfl
@[simp] theorem State.enterM_stvec (s : State) (c : Cause) (tval : XWord) : (s.enterM c tval).stvec = s.stvec := rfl
@[simp] theorem State.enterM_mem (s : State) (c : Cause) (tval : XWord) : (s.enterM c tval).mem = s.mem := rfl
@[simp] theorem State.enterM_unsynced (s : State) (c : Cause) (tval : XWord) : (s.enterM c tval).unsynced = s.unsynced := rfl
@[simp] theorem State.enterM_report (s : State) (c : Cause) (tval : XWord) : (s.enterM c tval).report = s.report := rfl
@[simp] theorem State.enterM_draws (s : State) (c : Cause) (tval : XWord) : (s.enterM c tval).draws = s.draws := rfl

/-! ### `enterS` -/

@[simp] theorem State.enterS_cfg (s : State) (c : Cause) (tval : XWord) : (s.enterS c tval).cfg = s.cfg := rfl
@[simp] theorem State.enterS_x (s : State) (c : Cause) (tval : XWord) : (s.enterS c tval).x = s.x := rfl
@[simp] theorem State.enterS_pc (s : State) (c : Cause) (tval : XWord) : (s.enterS c tval).pc = tvecBase s.cfg s.stvec := rfl
@[simp] theorem State.enterS_v (s : State) (c : Cause) (tval : XWord) : (s.enterS c tval).v = s.v := rfl
@[simp] theorem State.enterS_vstart (s : State) (c : Cause) (tval : XWord) : (s.enterS c tval).vstart = s.vstart := rfl
@[simp] theorem State.enterS_vxsat (s : State) (c : Cause) (tval : XWord) : (s.enterS c tval).vxsat = s.vxsat := rfl
@[simp] theorem State.enterS_vxrm (s : State) (c : Cause) (tval : XWord) : (s.enterS c tval).vxrm = s.vxrm := rfl
@[simp] theorem State.enterS_vl (s : State) (c : Cause) (tval : XWord) : (s.enterS c tval).vl = s.vl := rfl
@[simp] theorem State.enterS_vtype (s : State) (c : Cause) (tval : XWord) : (s.enterS c tval).vtype = s.vtype := rfl
@[simp] theorem State.enterS_priv (s : State) (c : Cause) (tval : XWord) : (s.enterS c tval).priv = .supervisor := rfl
@[simp] theorem State.enterS_mstatus (s : State) (c : Cause) (tval : XWord) : (s.enterS c tval).mstatus = { s.mstatus with spp := decide (s.priv = .supervisor), spie := s.mstatus.sie, sie := false } := rfl
@[simp] theorem State.enterS_misa (s : State) (c : Cause) (tval : XWord) : (s.enterS c tval).misa = s.misa := rfl
@[simp] theorem State.enterS_mepc (s : State) (c : Cause) (tval : XWord) : (s.enterS c tval).mepc = s.mepc := rfl
@[simp] theorem State.enterS_mcause (s : State) (c : Cause) (tval : XWord) : (s.enterS c tval).mcause = s.mcause := rfl
@[simp] theorem State.enterS_mtval (s : State) (c : Cause) (tval : XWord) : (s.enterS c tval).mtval = s.mtval := rfl
@[simp] theorem State.enterS_mtvec (s : State) (c : Cause) (tval : XWord) : (s.enterS c tval).mtvec = s.mtvec := rfl
@[simp] theorem State.enterS_medeleg (s : State) (c : Cause) (tval : XWord) : (s.enterS c tval).medeleg = s.medeleg := rfl
@[simp] theorem State.enterS_sepc (s : State) (c : Cause) (tval : XWord) : (s.enterS c tval).sepc = s.pc := rfl
@[simp] theorem State.enterS_scause (s : State) (c : Cause) (tval : XWord) : (s.enterS c tval).scause = BitVec.ofNat 64 c.code := rfl
@[simp] theorem State.enterS_stval (s : State) (c : Cause) (tval : XWord) : (s.enterS c tval).stval = tval := rfl
@[simp] theorem State.enterS_stvec (s : State) (c : Cause) (tval : XWord) : (s.enterS c tval).stvec = s.stvec := rfl
@[simp] theorem State.enterS_mem (s : State) (c : Cause) (tval : XWord) : (s.enterS c tval).mem = s.mem := rfl
@[simp] theorem State.enterS_unsynced (s : State) (c : Cause) (tval : XWord) : (s.enterS c tval).unsynced = s.unsynced := rfl
@[simp] theorem State.enterS_report (s : State) (c : Cause) (tval : XWord) : (s.enterS c tval).report = s.report := rfl
@[simp] theorem State.enterS_draws (s : State) (c : Cause) (tval : XWord) : (s.enterS c tval).draws = s.draws := rfl

/-! ### `takeTrap`: the fields no trap entry changes, and those it writes whatever the mode -/

@[simp] theorem State.takeTrap_cfg (s : State) (c : Cause) (tval : XWord) : (s.takeTrap c tval).cfg = s.cfg := by
  unfold State.takeTrap; dsimp only; split <;> rfl
@[simp] theorem State.takeTrap_x (s : State) (c : Cause) (tval : XWord) : (s.takeTrap c tval).x = s.x := by
  unfold State.takeTrap; dsimp only; split <;> rfl
@[simp] theorem State.takeTrap_v (s : State) (c : Cause) (tval : XWord) : (s.takeTrap c tval).v = s.v := by
  unfold State.takeTrap; dsimp only; split <;> rfl
@[simp] theorem State.takeTrap_vstart (s : State) (c : Cause) (tval : XWord) : (s.takeTrap c tval).vstart = s.vstart := by
  unfold State.takeTrap; dsimp only; split <;> rfl
@[simp] theorem State.takeTrap_vxsat (s : State) (c : Cause) (tval : XWord) : (s.takeTrap c tval).vxsat = s.vxsat := by
  unfold State.takeTrap; dsimp only; split <;> rfl
@[simp] theorem State.takeTrap_vxrm (s : State) (c : Cause) (tval : XWord) : (s.takeTrap c tval).vxrm = s.vxrm := by
  unfold State.takeTrap; dsimp only; split <;> rfl
@[simp] theorem State.takeTrap_vl (s : State) (c : Cause) (tval : XWord) : (s.takeTrap c tval).vl = s.vl := by
  unfold State.takeTrap; dsimp only; split <;> rfl
@[simp] theorem State.takeTrap_vtype (s : State) (c : Cause) (tval : XWord) : (s.takeTrap c tval).vtype = s.vtype := by
  unfold State.takeTrap; dsimp only; split <;> rfl
@[simp] theorem State.takeTrap_misa (s : State) (c : Cause) (tval : XWord) : (s.takeTrap c tval).misa = s.misa := by
  unfold State.takeTrap; dsimp only; split <;> rfl
@[simp] theorem State.takeTrap_mtvec (s : State) (c : Cause) (tval : XWord) : (s.takeTrap c tval).mtvec = s.mtvec := by
  unfold State.takeTrap; dsimp only; split <;> rfl
@[simp] theorem State.takeTrap_medeleg (s : State) (c : Cause) (tval : XWord) : (s.takeTrap c tval).medeleg = s.medeleg := by
  unfold State.takeTrap; dsimp only; split <;> rfl
@[simp] theorem State.takeTrap_stvec (s : State) (c : Cause) (tval : XWord) : (s.takeTrap c tval).stvec = s.stvec := by
  unfold State.takeTrap; dsimp only; split <;> rfl
@[simp] theorem State.takeTrap_mem (s : State) (c : Cause) (tval : XWord) : (s.takeTrap c tval).mem = s.mem := by
  unfold State.takeTrap; dsimp only; split <;> rfl
@[simp] theorem State.takeTrap_unsynced (s : State) (c : Cause) (tval : XWord) : (s.takeTrap c tval).unsynced = s.unsynced := by
  unfold State.takeTrap; dsimp only; split <;> rfl
@[simp] theorem State.takeTrap_report (s : State) (c : Cause) (tval : XWord) : (s.takeTrap c tval).report = some ⟨c, tval, s.pc⟩ := by
  unfold State.takeTrap; dsimp only; split <;> rfl
@[simp] theorem State.takeTrap_draws (s : State) (c : Cause) (tval : XWord) : (s.takeTrap c tval).draws = s.draws + 1 := by
  unfold State.takeTrap; dsimp only; split <;> rfl
@[simp] theorem State.takeTrap_vs (s : State) (c : Cause) (tval : XWord) :
    (s.takeTrap c tval).mstatus.vs = s.mstatus.vs := by
  unfold State.takeTrap; dsimp only; split <;> rfl
@[simp] theorem State.takeTrap_fs (s : State) (c : Cause) (tval : XWord) :
    (s.takeTrap c tval).mstatus.fs = s.mstatus.fs := by
  unfold State.takeTrap; dsimp only; split <;> rfl
@[simp] theorem State.takeTrap_xs (s : State) (c : Cause) (tval : XWord) :
    (s.takeTrap c tval).mstatus.xs = s.mstatus.xs := by
  unfold State.takeTrap; dsimp only; split <;> rfl

/-- A trap that is not delegated enters machine mode. -/
theorem State.takeTrap_machine {s : State} {c : Cause} (h : s.delegated c = false) (tval : XWord) :
    s.takeTrap c tval =
      ({ s with report := some ⟨c, tval, s.pc⟩, draws := s.draws + 1 } : State).enterM c tval := by
  simp [State.takeTrap, h]

/-- A delegated trap enters supervisor mode. -/
theorem State.takeTrap_supervisor {s : State} {c : Cause} (h : s.delegated c = true) (tval : XWord) :
    s.takeTrap c tval =
      ({ s with report := some ⟨c, tval, s.pc⟩, draws := s.draws + 1 } : State).enterS c tval := by
  simp [State.takeTrap, h]

/-! ### `elemTrap` and `illegal` -/

@[simp] theorem State.elemTrap_cfg (s : State) (i : Nat) (c : Cause) (tval : XWord) :
    (s.elemTrap i c tval).cfg = s.cfg := by simp [State.elemTrap]
@[simp] theorem State.elemTrap_x (s : State) (i : Nat) (c : Cause) (tval : XWord) :
    (s.elemTrap i c tval).x = s.x := by simp [State.elemTrap]
@[simp] theorem State.elemTrap_v (s : State) (i : Nat) (c : Cause) (tval : XWord) :
    (s.elemTrap i c tval).v = s.v := by simp [State.elemTrap]
@[simp] theorem State.elemTrap_vstart (s : State) (i : Nat) (c : Cause) (tval : XWord) :
    (s.elemTrap i c tval).vstart = BitVec.ofNat 64 i := by simp [State.elemTrap]
@[simp] theorem State.elemTrap_vxsat (s : State) (i : Nat) (c : Cause) (tval : XWord) :
    (s.elemTrap i c tval).vxsat = s.vxsat := by simp [State.elemTrap]
@[simp] theorem State.elemTrap_vxrm (s : State) (i : Nat) (c : Cause) (tval : XWord) :
    (s.elemTrap i c tval).vxrm = s.vxrm := by simp [State.elemTrap]
@[simp] theorem State.elemTrap_vl (s : State) (i : Nat) (c : Cause) (tval : XWord) :
    (s.elemTrap i c tval).vl = s.vl := by simp [State.elemTrap]
@[simp] theorem State.elemTrap_vtype (s : State) (i : Nat) (c : Cause) (tval : XWord) :
    (s.elemTrap i c tval).vtype = s.vtype := by simp [State.elemTrap]
@[simp] theorem State.elemTrap_misa (s : State) (i : Nat) (c : Cause) (tval : XWord) :
    (s.elemTrap i c tval).misa = s.misa := by simp [State.elemTrap]
@[simp] theorem State.elemTrap_mtvec (s : State) (i : Nat) (c : Cause) (tval : XWord) :
    (s.elemTrap i c tval).mtvec = s.mtvec := by simp [State.elemTrap]
@[simp] theorem State.elemTrap_medeleg (s : State) (i : Nat) (c : Cause) (tval : XWord) :
    (s.elemTrap i c tval).medeleg = s.medeleg := by simp [State.elemTrap]
@[simp] theorem State.elemTrap_stvec (s : State) (i : Nat) (c : Cause) (tval : XWord) :
    (s.elemTrap i c tval).stvec = s.stvec := by simp [State.elemTrap]
@[simp] theorem State.elemTrap_mem (s : State) (i : Nat) (c : Cause) (tval : XWord) :
    (s.elemTrap i c tval).mem = s.mem := by simp [State.elemTrap]
@[simp] theorem State.elemTrap_unsynced (s : State) (i : Nat) (c : Cause) (tval : XWord) :
    (s.elemTrap i c tval).unsynced = s.unsynced := by simp [State.elemTrap]
@[simp] theorem State.elemTrap_report (s : State) (i : Nat) (c : Cause) (tval : XWord) :
    (s.elemTrap i c tval).report = some ⟨c, tval, s.pc⟩ := by simp [State.elemTrap]
@[simp] theorem State.elemTrap_draws (s : State) (i : Nat) (c : Cause) (tval : XWord) :
    (s.elemTrap i c tval).draws = s.draws + 1 := by simp [State.elemTrap]
@[simp] theorem State.elemTrap_vs (s : State) (i : Nat) (c : Cause) (tval : XWord) :
    (s.elemTrap i c tval).mstatus.vs = .dirty := by simp [State.elemTrap]
@[simp] theorem State.elemTrap_fs (s : State) (i : Nat) (c : Cause) (tval : XWord) :
    (s.elemTrap i c tval).mstatus.fs = s.mstatus.fs := by simp [State.elemTrap]
@[simp] theorem State.elemTrap_xs (s : State) (i : Nat) (c : Cause) (tval : XWord) :
    (s.elemTrap i c tval).mstatus.xs = s.mstatus.xs := by simp [State.elemTrap]

@[simp] theorem State.illegal_cfg (s : State) (insn : InsnWord) : (s.illegal insn).cfg = s.cfg := by
  simp [State.illegal]
@[simp] theorem State.illegal_x (s : State) (insn : InsnWord) : (s.illegal insn).x = s.x := by
  simp [State.illegal]
@[simp] theorem State.illegal_v (s : State) (insn : InsnWord) : (s.illegal insn).v = s.v := by
  simp [State.illegal]
@[simp] theorem State.illegal_vstart (s : State) (insn : InsnWord) : (s.illegal insn).vstart = s.vstart := by
  simp [State.illegal]
@[simp] theorem State.illegal_vxsat (s : State) (insn : InsnWord) : (s.illegal insn).vxsat = s.vxsat := by
  simp [State.illegal]
@[simp] theorem State.illegal_vxrm (s : State) (insn : InsnWord) : (s.illegal insn).vxrm = s.vxrm := by
  simp [State.illegal]
@[simp] theorem State.illegal_vl (s : State) (insn : InsnWord) : (s.illegal insn).vl = s.vl := by
  simp [State.illegal]
@[simp] theorem State.illegal_vtype (s : State) (insn : InsnWord) : (s.illegal insn).vtype = s.vtype := by
  simp [State.illegal]
@[simp] theorem State.illegal_misa (s : State) (insn : InsnWord) : (s.illegal insn).misa = s.misa := by
  simp [State.illegal]
@[simp] theorem State.illegal_mtvec (s : State) (insn : InsnWord) : (s.illegal insn).mtvec = s.mtvec := by
  simp [State.illegal]
@[simp] theorem State.illegal_medeleg (s : State) (insn : InsnWord) : (s.illegal insn).medeleg = s.medeleg := by
  simp [State.illegal]
@[simp] theorem State.illegal_stvec (s : State) (insn : InsnWord) : (s.illegal insn).stvec = s.stvec := by
  simp [State.illegal]
@[simp] theorem State.illegal_mem (s : State) (insn : InsnWord) : (s.illegal insn).mem = s.mem := by
  simp [State.illegal]
@[simp] theorem State.illegal_unsynced (s : State) (insn : InsnWord) : (s.illegal insn).unsynced = s.unsynced := by
  simp [State.illegal]
@[simp] theorem State.illegal_report (s : State) (insn : InsnWord) : (s.illegal insn).report = some ⟨.illegalInstruction, insn.setWidth 64, s.pc⟩ := by
  simp [State.illegal]
@[simp] theorem State.illegal_draws (s : State) (insn : InsnWord) : (s.illegal insn).draws = s.draws + 1 := by
  simp [State.illegal]
@[simp] theorem State.illegal_vs (s : State) (insn : InsnWord) :
    (s.illegal insn).mstatus.vs = s.mstatus.vs := by simp [State.illegal]
@[simp] theorem State.illegal_fs (s : State) (insn : InsnWord) :
    (s.illegal insn).mstatus.fs = s.mstatus.fs := by simp [State.illegal]
@[simp] theorem State.illegal_xs (s : State) (insn : InsnWord) :
    (s.illegal insn).mstatus.xs = s.mstatus.xs := by simp [State.illegal]

/-! ### `writeX` -/

@[simp] theorem State.writeX_cfg (s : State) (r : RegNo) (a : XWord) : (s.writeX r a).cfg = s.cfg := by
  unfold State.writeX; split <;> rfl
@[simp] theorem State.writeX_pc (s : State) (r : RegNo) (a : XWord) : (s.writeX r a).pc = s.pc := by
  unfold State.writeX; split <;> rfl
@[simp] theorem State.writeX_v (s : State) (r : RegNo) (a : XWord) : (s.writeX r a).v = s.v := by
  unfold State.writeX; split <;> rfl
@[simp] theorem State.writeX_vstart (s : State) (r : RegNo) (a : XWord) : (s.writeX r a).vstart = s.vstart := by
  unfold State.writeX; split <;> rfl
@[simp] theorem State.writeX_vxsat (s : State) (r : RegNo) (a : XWord) : (s.writeX r a).vxsat = s.vxsat := by
  unfold State.writeX; split <;> rfl
@[simp] theorem State.writeX_vxrm (s : State) (r : RegNo) (a : XWord) : (s.writeX r a).vxrm = s.vxrm := by
  unfold State.writeX; split <;> rfl
@[simp] theorem State.writeX_vl (s : State) (r : RegNo) (a : XWord) : (s.writeX r a).vl = s.vl := by
  unfold State.writeX; split <;> rfl
@[simp] theorem State.writeX_vtype (s : State) (r : RegNo) (a : XWord) : (s.writeX r a).vtype = s.vtype := by
  unfold State.writeX; split <;> rfl
@[simp] theorem State.writeX_priv (s : State) (r : RegNo) (a : XWord) : (s.writeX r a).priv = s.priv := by
  unfold State.writeX; split <;> rfl
@[simp] theorem State.writeX_mstatus (s : State) (r : RegNo) (a : XWord) : (s.writeX r a).mstatus = s.mstatus := by
  unfold State.writeX; split <;> rfl
@[simp] theorem State.writeX_misa (s : State) (r : RegNo) (a : XWord) : (s.writeX r a).misa = s.misa := by
  unfold State.writeX; split <;> rfl
@[simp] theorem State.writeX_mepc (s : State) (r : RegNo) (a : XWord) : (s.writeX r a).mepc = s.mepc := by
  unfold State.writeX; split <;> rfl
@[simp] theorem State.writeX_mcause (s : State) (r : RegNo) (a : XWord) : (s.writeX r a).mcause = s.mcause := by
  unfold State.writeX; split <;> rfl
@[simp] theorem State.writeX_mtval (s : State) (r : RegNo) (a : XWord) : (s.writeX r a).mtval = s.mtval := by
  unfold State.writeX; split <;> rfl
@[simp] theorem State.writeX_mtvec (s : State) (r : RegNo) (a : XWord) : (s.writeX r a).mtvec = s.mtvec := by
  unfold State.writeX; split <;> rfl
@[simp] theorem State.writeX_medeleg (s : State) (r : RegNo) (a : XWord) : (s.writeX r a).medeleg = s.medeleg := by
  unfold State.writeX; split <;> rfl
@[simp] theorem State.writeX_sepc (s : State) (r : RegNo) (a : XWord) : (s.writeX r a).sepc = s.sepc := by
  unfold State.writeX; split <;> rfl
@[simp] theorem State.writeX_scause (s : State) (r : RegNo) (a : XWord) : (s.writeX r a).scause = s.scause := by
  unfold State.writeX; split <;> rfl
@[simp] theorem State.writeX_stval (s : State) (r : RegNo) (a : XWord) : (s.writeX r a).stval = s.stval := by
  unfold State.writeX; split <;> rfl
@[simp] theorem State.writeX_stvec (s : State) (r : RegNo) (a : XWord) : (s.writeX r a).stvec = s.stvec := by
  unfold State.writeX; split <;> rfl
@[simp] theorem State.writeX_mem (s : State) (r : RegNo) (a : XWord) : (s.writeX r a).mem = s.mem := by
  unfold State.writeX; split <;> rfl
@[simp] theorem State.writeX_unsynced (s : State) (r : RegNo) (a : XWord) : (s.writeX r a).unsynced = s.unsynced := by
  unfold State.writeX; split <;> rfl
@[simp] theorem State.writeX_report (s : State) (r : RegNo) (a : XWord) : (s.writeX r a).report = s.report := by
  unfold State.writeX; split <;> rfl
@[simp] theorem State.writeX_draws (s : State) (r : RegNo) (a : XWord) : (s.writeX r a).draws = s.draws := by
  unfold State.writeX; split <;> rfl

/-! ### `writeVs` -/

@[simp] theorem State.writeVs_cfg (s : State) (b : BitVec 2) : (s.writeVs b).cfg = s.cfg := rfl
@[simp] theorem State.writeVs_x (s : State) (b : BitVec 2) : (s.writeVs b).x = s.x := rfl
@[simp] theorem State.writeVs_pc (s : State) (b : BitVec 2) : (s.writeVs b).pc = s.pc := rfl
@[simp] theorem State.writeVs_v (s : State) (b : BitVec 2) : (s.writeVs b).v = s.v := rfl
@[simp] theorem State.writeVs_vstart (s : State) (b : BitVec 2) : (s.writeVs b).vstart = s.vstart := rfl
@[simp] theorem State.writeVs_vxsat (s : State) (b : BitVec 2) : (s.writeVs b).vxsat = s.vxsat := rfl
@[simp] theorem State.writeVs_vxrm (s : State) (b : BitVec 2) : (s.writeVs b).vxrm = s.vxrm := rfl
@[simp] theorem State.writeVs_vl (s : State) (b : BitVec 2) : (s.writeVs b).vl = s.vl := rfl
@[simp] theorem State.writeVs_vtype (s : State) (b : BitVec 2) : (s.writeVs b).vtype = s.vtype := rfl
@[simp] theorem State.writeVs_priv (s : State) (b : BitVec 2) : (s.writeVs b).priv = s.priv := rfl
@[simp] theorem State.writeVs_mstatus (s : State) (b : BitVec 2) : (s.writeVs b).mstatus = { s.mstatus with vs := VsStatus.ofCode b } := rfl
@[simp] theorem State.writeVs_misa (s : State) (b : BitVec 2) : (s.writeVs b).misa = s.misa := rfl
@[simp] theorem State.writeVs_mepc (s : State) (b : BitVec 2) : (s.writeVs b).mepc = s.mepc := rfl
@[simp] theorem State.writeVs_mcause (s : State) (b : BitVec 2) : (s.writeVs b).mcause = s.mcause := rfl
@[simp] theorem State.writeVs_mtval (s : State) (b : BitVec 2) : (s.writeVs b).mtval = s.mtval := rfl
@[simp] theorem State.writeVs_mtvec (s : State) (b : BitVec 2) : (s.writeVs b).mtvec = s.mtvec := rfl
@[simp] theorem State.writeVs_medeleg (s : State) (b : BitVec 2) : (s.writeVs b).medeleg = s.medeleg := rfl
@[simp] theorem State.writeVs_sepc (s : State) (b : BitVec 2) : (s.writeVs b).sepc = s.sepc := rfl
@[simp] theorem State.writeVs_scause (s : State) (b : BitVec 2) : (s.writeVs b).scause = s.scause := rfl
@[simp] theorem State.writeVs_stval (s : State) (b : BitVec 2) : (s.writeVs b).stval = s.stval := rfl
@[simp] theorem State.writeVs_stvec (s : State) (b : BitVec 2) : (s.writeVs b).stvec = s.stvec := rfl
@[simp] theorem State.writeVs_mem (s : State) (b : BitVec 2) : (s.writeVs b).mem = s.mem := rfl
@[simp] theorem State.writeVs_unsynced (s : State) (b : BitVec 2) : (s.writeVs b).unsynced = s.unsynced := rfl
@[simp] theorem State.writeVs_report (s : State) (b : BitVec 2) : (s.writeVs b).report = s.report := rfl
@[simp] theorem State.writeVs_draws (s : State) (b : BitVec 2) : (s.writeVs b).draws = s.draws := rfl

/-! ### The vector-unit status (R365) -/

@[simp] theorem VsStatus.ofCode_code (m : VsStatus) : VsStatus.ofCode m.code = m := by cases m <;> rfl

@[simp] theorem VsStatus.code_ofCode (b : BitVec 2) : (VsStatus.ofCode b).code = b := by revert b; decide

/-- The four codes are the four statuses: a code is not 0 exactly when the unit is on. -/
theorem State.vsEnabled_writeVs (s : State) (b : BitVec 2) : (s.writeVs b).vsEnabled = decide (b ≠ 0#2) := by
  have h : ∀ b : BitVec 2, decide (VsStatus.ofCode b ≠ .off) = decide (b ≠ 0#2) := by decide
  exact h b

/-- A state whose vector state is dirty shows it in `SD`. -/
theorem MStatus.sd_of_vs_dirty {m : MStatus} (h : m.vs = .dirty) : m.sd = true := by simp [MStatus.sd, h]

end Sys2Proof.Machine
end

