-- ==== Sys2Proof/Laws/Memory.lean ====
section
/-! SUPPORT. What the memory operations do: reads after writes, the canonical form, the set of unsynchronised
addresses. -/

namespace Sys2Proof.Machine

open Sys2Proof.Config

/-! ### Reads -/

theorem Mem.read_insert (m : Mem) (a : Nat) (b : Byte) (x : Nat) :
    Mem.read (Mem.insert m a b) x = if x = a then b else Mem.read m x := by
  induction m with
  | nil => simp [Mem.insert, Mem.read, eq_comm]
  | cons p t ih =>
    obtain ⟨k, c⟩ := p
    unfold Mem.insert
    by_cases hk : k = x <;> by_cases hx : x = a <;> split_ifs with h1 h2 <;>
      simp only [Mem.read, hk, hx, ih, if_true, if_false] <;> grind

theorem Mem.read_erase (m : Mem) (a x : Nat) :
    Mem.read (Mem.erase m a) x = if x = a then blankByte else Mem.read m x := by
  induction m with
  | nil => simp [Mem.erase, Mem.read]
  | cons p t ih =>
    obtain ⟨k, c⟩ := p
    unfold Mem.erase at ih ⊢
    by_cases h : k = a
    · simp only [List.filter, h, bne_self_eq_false, ih, Mem.read]
      split_ifs <;> simp_all
    · have hk : ((k, c).1 != a) = true := by simpa using h
      simp only [List.filter, hk, Mem.read, ih]
      split_ifs <;> simp_all

/-- A read after a write to the same place gives the value written; every other place is left alone. -/
theorem Mem.read_write (m : Mem) (a : Nat) (b : Byte) (x : Nat) :
    Mem.read (Mem.write m a b) x = if x = a then b else Mem.read m x := by
  unfold Mem.write
  split_ifs with h1 h2 <;> simp_all [Mem.read_insert, Mem.read_erase]

@[simp] theorem Mem.writes_nil (m : Mem) : Mem.writes m [] = m := rfl

@[simp] theorem Mem.writes_cons (m : Mem) (p : Nat × Byte) (ws : List (Nat × Byte)) :
    Mem.writes m (p :: ws) = Mem.writes (Mem.write m p.1 p.2) ws := rfl

/-- A sequence of writes leaves at each place the last value written there. -/
theorem Mem.read_writes (m : Mem) (ws : List (Nat × Byte)) (x : Nat) :
    Mem.read (Mem.writes m ws) x = (writersOf ws x).getLast?.getD (Mem.read m x) := by
  induction ws generalizing m with
  | nil => rfl
  | cons p t ih =>
    rw [Mem.writes_cons, ih, Mem.read_write]
    by_cases h : p.1 = x
    · have hw : writersOf (p :: t) x = p.2 :: writersOf t x := by simp [writersOf, h]
      rw [hw, List.getLast?_cons, if_pos h.symm]; rfl
    · have hw : writersOf (p :: t) x = writersOf t x := by simp [writersOf, h]
      rw [hw, if_neg (Ne.symm h)]

/-- An address that nothing writes reads as before. -/
theorem Mem.read_writes_of_not_mem {m : Mem} {ws : List (Nat × Byte)} {x : Nat} (h : ∀ p ∈ ws, p.1 ≠ x) :
    Mem.read (Mem.writes m ws) x = Mem.read m x := by
  rw [Mem.read_writes]
  have : writersOf ws x = [] := by
    simp only [writersOf, List.map_eq_nil_iff, List.filter_eq_nil_iff, beq_iff_eq]
    exact fun p hp => h p hp
  simp [this]

theorem mem_writersOf {ws : List (Nat × Byte)} {x : Nat} {b : Byte} : b ∈ writersOf ws x ↔ (x, b) ∈ ws := by
  simp only [writersOf, List.mem_map, List.mem_filter, beq_iff_eq]
  constructor
  · rintro ⟨⟨k, c⟩, ⟨h, rfl⟩, rfl⟩; exact h
  · intro h; exact ⟨(x, b), ⟨h, rfl⟩, rfl⟩

/-- An address that something writes reads as one of the values written there. -/
theorem Mem.read_writes_of_mem {m : Mem} {ws : List (Nat × Byte)} {x : Nat} (h : ∃ p ∈ ws, p.1 = x) :
    (x, Mem.read (Mem.writes m ws) x) ∈ ws := by
  rw [Mem.read_writes, ← mem_writersOf]
  obtain ⟨⟨k, b⟩, hp, rfl⟩ := h
  have hne : writersOf ws k ≠ [] := List.ne_nil_of_mem (mem_writersOf.mpr hp)
  rw [List.getLast?_eq_getLast_of_ne_nil hne]
  exact List.getLast_mem hne

/-! ### The canonical form -/

/-- The canonical form: addresses strictly rising, no entry blank. -/
theorem Mem.wf_iff (m : Mem) :
    Mem.wf m = true ↔ m.Pairwise (fun p q => p.1 < q.1) ∧ ∀ p ∈ m, p.2 ≠ blankByte := by
  induction m with
  | nil => simp [Mem.wf]
  | cons p t ih =>
    obtain ⟨k, b⟩ := p
    cases t with
    | nil => simp [Mem.wf]
    | cons q t =>
      obtain ⟨k', b'⟩ := q
      simp only [Mem.wf, Bool.and_eq_true, bne_iff_ne, decide_eq_true_eq, ih]
      simp only [List.pairwise_cons, List.mem_cons, forall_eq_or_imp]
      constructor
      · rintro ⟨⟨h1, h2⟩, ⟨h3, h4⟩, h5, h6⟩
        exact ⟨⟨⟨h2, fun a ha => lt_trans h2 (h3 a ha)⟩, h3, h4⟩, h1, h5, h6⟩
      · rintro ⟨⟨⟨h2, _⟩, h3, h4⟩, h1, h5, h6⟩
        exact ⟨⟨h1, h2⟩, ⟨h3, h4⟩, h5, h6⟩

theorem Mem.mem_insert {m : Mem} {a : Nat} {b : Byte} {p : Host.Cell} (h : p ∈ Mem.insert m a b) :
    p = (a, b) ∨ p ∈ m := by
  induction m with
  | nil => simpa [Mem.insert] using h
  | cons q t ih =>
    obtain ⟨k, c⟩ := q
    unfold Mem.insert at h
    split_ifs at h with h1 h2
    · simpa using h
    · rcases List.mem_cons.mp h with h | h
      · exact .inl h
      · exact .inr (List.mem_cons_of_mem _ h)
    · rcases List.mem_cons.mp h with h | h
      · exact .inr (h ▸ List.mem_cons_self)
      · exact (ih h).imp id (List.mem_cons_of_mem _)

theorem Mem.wf_insert {m : Mem} {a : Nat} {b : Byte} (h : Mem.wf m = true) (hb : b ≠ blankByte) :
    Mem.wf (Mem.insert m a b) = true := by
  rw [Mem.wf_iff] at h ⊢
  refine ⟨?_, fun p hp => (Mem.mem_insert hp).elim (fun e => e ▸ hb) (h.2 p)⟩
  obtain ⟨h, -⟩ := h
  induction m with
  | nil => simp [Mem.insert]
  | cons q t ih =>
    obtain ⟨k, c⟩ := q
    obtain ⟨hk, ht⟩ := List.pairwise_cons.mp h
    unfold Mem.insert
    split_ifs with h1 h2
    · refine List.pairwise_cons.mpr ⟨fun p hp => ?_, h⟩
      rcases List.mem_cons.mp hp with rfl | hp
      · exact h1
      · exact lt_trans h1 (hk p hp)
    · subst h2; exact List.pairwise_cons.mpr ⟨hk, ht⟩
    · refine List.pairwise_cons.mpr ⟨fun p hp => ?_, ih ht⟩
      rcases Mem.mem_insert hp with rfl | hp
      · exact lt_of_le_of_ne (not_lt.mp h1) (Ne.symm h2)
      · exact hk p hp

theorem Mem.wf_erase {m : Mem} {a : Nat} (h : Mem.wf m = true) : Mem.wf (Mem.erase m a) = true := by
  rw [Mem.wf_iff] at h ⊢
  exact ⟨h.1.filter _, fun p hp => h.2 p (List.mem_of_mem_filter hp)⟩

/-- A write keeps the canonical form. -/
theorem Mem.wf_write {m : Mem} {a : Nat} {b : Byte} (h : Mem.wf m = true) : Mem.wf (Mem.write m a b) = true := by
  unfold Mem.write
  split_ifs with hb
  · exact Mem.wf_erase h
  · exact Mem.wf_insert h hb

/-- Writes keep the canonical form. -/
theorem Mem.wf_writes {m : Mem} {ws : List (Nat × Byte)} (h : Mem.wf m = true) : Mem.wf (Mem.writes m ws) = true := by
  induction ws generalizing m with
  | nil => exact h
  | cons p t ih => exact ih (Mem.wf_write h)

/-- A write lists no address but its own beside those already listed. -/
theorem Mem.mem_write {m : Mem} {a : Nat} {b : Byte} {p : Host.Cell} (h : p ∈ Mem.write m a b) :
    p = (a, b) ∨ p ∈ m := by
  unfold Mem.write at h
  split_ifs at h
  · exact .inr (List.mem_of_mem_filter h)
  · exact Mem.mem_insert h

/-- Writes list no address but theirs beside those already listed. -/
theorem Mem.mem_writes {m : Mem} {ws : List (Nat × Byte)} {p : Host.Cell} (h : p ∈ Mem.writes m ws) :
    p ∈ ws ∨ p ∈ m := by
  induction ws generalizing m with
  | nil => exact .inr h
  | cons q t ih =>
    rcases ih h with h | h
    · exact .inl (List.mem_cons_of_mem _ h)
    · rcases Mem.mem_write h with rfl | h
      · exact .inl List.mem_cons_self
      · exact .inr h

/-! ### The unsynchronised addresses -/

theorem mem_insertAddr {a x : Nat} {l : List Nat} : x ∈ insertAddr a l ↔ x = a ∨ x ∈ l := by
  induction l with
  | nil => simp [insertAddr]
  | cons k t ih =>
    unfold insertAddr
    split_ifs with h1 h2
    · simp
    · subst h2; simp
    · simp only [List.mem_cons, ih]; tauto

theorem pairwise_insertAddr {a : Nat} {l : List Nat} (h : l.Pairwise (· < ·)) :
    (insertAddr a l).Pairwise (· < ·) := by
  induction l with
  | nil => simp [insertAddr]
  | cons k t ih =>
    obtain ⟨hk, ht⟩ := List.pairwise_cons.mp h
    unfold insertAddr
    split_ifs with h1 h2
    · refine List.pairwise_cons.mpr ⟨fun p hp => ?_, h⟩
      rcases List.mem_cons.mp hp with rfl | hp
      · exact h1
      · exact lt_trans h1 (hk p hp)
    · exact h
    · refine List.pairwise_cons.mpr ⟨fun p hp => ?_, ih ht⟩
      rcases mem_insertAddr.mp hp with rfl | hp
      · exact lt_of_le_of_ne (not_lt.mp h1) (Ne.symm h2)
      · exact hk p hp

/-- The addresses of stored bytes join the unsynchronised ones. -/
theorem mem_foldl_insertAddr {ws : List (Nat × Byte)} {l : List Nat} {x : Nat} :
    x ∈ ws.foldl (fun l p => insertAddr p.1 l) l ↔ x ∈ l ∨ ∃ p ∈ ws, p.1 = x := by
  induction ws generalizing l with
  | nil => simp
  | cons p t ih =>
    simp only [List.foldl_cons, ih, mem_insertAddr, List.mem_cons, exists_eq_or_imp]
    constructor
    · rintro ((rfl | h) | h)
      · exact .inr (.inl rfl)
      · exact .inl h
      · exact .inr (.inr h)
    · rintro (h | rfl | h)
      · exact .inl (.inr h)
      · exact .inl (.inl rfl)
      · exact .inr h

theorem pairwise_foldl_insertAddr {ws : List (Nat × Byte)} {l : List Nat} (h : l.Pairwise (· < ·)) :
    (ws.foldl (fun l p => insertAddr p.1 l) l).Pairwise (· < ·) := by
  induction ws generalizing l with
  | nil => exact h
  | cons p t ih => exact ih (pairwise_insertAddr h)

/-! ### The writes of a store -/

/-- An element's bytes go to its address and the addresses after it, modulo 2^XLEN. -/
theorem mem_elemBytes {c : Params} {a : XWord} {W : Nat} {val : BitVec W} {p : Nat × Byte} :
    p ∈ elemBytes c a val ↔ ∃ k < W / 8, p = ((a.toNat + k) % 2 ^ c.xbits, byteOf val k) := by
  simp only [elemBytes, List.mem_map, List.mem_range]
  exact ⟨fun ⟨k, hk, e⟩ => ⟨k, hk, e.symm⟩, fun ⟨k, hk, e⟩ => ⟨k, hk, e.symm⟩⟩

/-- The writes of a store are the bytes of its active elements. -/
theorem mem_storeWrites {s : State} {vs3 : RegNo} {W body : Nat} {on : Nat → Bool} {addr : Nat → XWord}
    {done : Nat → Bool} {p : Nat × Byte} :
    p ∈ storeWrites s vs3 W body on addr done ↔
      ∃ i, s.vstartN ≤ i ∧ i < body ∧ on i = true ∧ done i = true ∧
        ∃ k < W / 8, p = (((addr i).toNat + k) % 2 ^ s.cfg.xbits, byteOf (s.elem vs3 W i) k) := by
  simp only [storeWrites, List.mem_flatMap, List.mem_range'_1]
  constructor
  · rintro ⟨i, ⟨h1, h2⟩, h⟩
    split_ifs at h with hc
    · rw [Bool.and_eq_true] at hc
      exact ⟨i, h1, by omega, hc.1, hc.2, mem_elemBytes.mp h⟩
    · simp at h
  · rintro ⟨i, h1, h2, h3, h4, h⟩
    refine ⟨i, ⟨h1, by omega⟩, ?_⟩
    rw [if_pos (by simp [h3, h4])]
    exact mem_elemBytes.mpr h

/-- A store writes the same addresses whichever of its elements wins each byte (R72). -/
theorem map_fst_landed (s : State) (ordered : Bool) (ws : List (Nat × Byte)) :
    (landed s ordered ws).map (·.1) = ws.map (·.1) := by
  unfold landed; split_ifs <;> simp

/-- What a store leaves at an address is a byte one of its elements writes there (R72). -/
theorem mem_of_mem_landed {s : State} {ordered : Bool} {ws : List (Nat × Byte)} {p : Nat × Byte}
    (h : p ∈ landed s ordered ws) : p ∈ ws := by
  unfold landed at h
  split_ifs at h
  · exact h
  · obtain ⟨q, hq, rfl⟩ := List.mem_map.mp h
    have hpos : 0 < (writersOf ws q.1).length := List.length_pos_of_mem (mem_writersOf.mpr (show (q.1, q.2) ∈ ws from hq))
    have hlt := Nat.mod_lt (overlapWinner s.draws q.1) hpos
    rw [List.getD_eq_getElem _ _ hlt, ← mem_writersOf]
    exact List.getElem_mem hlt

/-- The bytes stored to are those of the writes. -/
theorem exists_fst_landed {s : State} {ordered : Bool} {ws : List (Nat × Byte)} {x : Nat} :
    (∃ p ∈ landed s ordered ws, p.1 = x) ↔ ∃ p ∈ ws, p.1 = x := by
  have h := map_fst_landed s ordered ws
  rw [← List.mem_map, h, List.mem_map]

end Sys2Proof.Machine
end

