-- ==== Sys2Proof/Laws/Elements.lean ====
section
/-! SUPPORT. What reading and writing registers and elements does (R12, R13, R38). -/

namespace Sys2Proof.Machine

open Sys2Proof.Config

/-! ### Scalar registers -/

@[simp] theorem State.readX_zero (s : State) : s.readX 0#5 = 0 := rfl

@[simp] theorem State.writeX_zero (s : State) (a : XWord) : s.writeX 0#5 a = s := rfl

theorem truncX_truncX (c : Params) (a : XWord) : truncX c (truncX c a) = truncX c a := by
  unfold truncX
  split
  · rfl
  · simp

/-- A read after a write of an `x` register (R12, R20). -/
theorem State.readX_writeX (s : State) (r q : RegNo) (a : XWord) :
    (s.writeX r a).readX q = if q = r ∧ r ≠ 0#5 then truncX s.cfg a else s.readX q := by
  unfold State.writeX
  by_cases hr : r = 0#5
  · simp [hr]
  · by_cases hq : q = r
    · subst hq
      simp only [hr, if_false, State.readX, ne_eq, not_false_eq_true, and_self, if_true]
      rw [show (s.x.set (regIdx q).val (truncX s.cfg a) (regIdx q).isLt).get (regIdx q) = truncX s.cfg a from
        Vector.getElem_set_self (regIdx q).isLt, truncX_truncX]
    · have hi : (regIdx q).val ≠ (regIdx r).val := by
        intro h; exact hq (by simpa [regIdx, BitVec.toNat_inj] using h)
      simp only [hr, if_false, State.readX, hq, false_and]
      split
      · rfl
      · congr 1
        show (s.x.set _ _ _)[(regIdx q).val] = s.x[(regIdx q).val]
        rw [Vector.getElem_set_ne _ _ (Ne.symm hi)]

/-! ### Vector registers -/

theorem vreg_setVreg (f : VFile) (n m : Nat) (r : VReg) :
    vreg (setVreg f n r) m = if m % 32 = n % 32 then r else vreg f m := by
  unfold vreg setVreg
  show (f.set (n % 32) r _)[m % 32] = _
  rw [Vector.getElem_set]
  by_cases h : m % 32 = n % 32
  · simp [h]
  · rw [if_neg (Ne.symm h), if_neg h]; rfl

theorem getLsbD_setSlice (r : VReg) (off : Nat) {W : Nat} (val : BitVec W) (j : Nat) :
    (setSlice r off val).getLsbD j =
      if off ≤ j ∧ j < off + W ∧ j < 65536 then val.getLsbD (j - off) else r.getLsbD j := by
  unfold setSlice
  simp only [BitVec.getLsbD_or, BitVec.getLsbD_and, BitVec.getLsbD_not, BitVec.getLsbD_shiftLeft,
    BitVec.getLsbD_setWidth, BitVec.getLsbD_allOnes]
  by_cases h1 : j < 65536
  · by_cases h2 : j < off
    · have : ¬ off ≤ j := by omega
      simp [h1, h2, this]
    · have h3 : off ≤ j := by omega
      by_cases h4 : j < off + W
      · have h5 : j - off < W := by omega
        have h6 : j - off < 65536 := by omega
        simp [h1, h2, h3, h4, h5, h6]
      · have h5 : ¬ j - off < W := by omega
        have h6 : ¬ (off ≤ j ∧ j < off + W ∧ j < 65536) := by omega
        have h7 : val.getLsbD (j - off) = false := BitVec.getLsbD_of_ge _ _ (by omega)
        rw [if_neg h6]
        simp [h1, h2, h5, h7]
  · have : r.getLsbD j = false := BitVec.getLsbD_of_ge _ _ (by omega)
    simp [h1, this]

/-! ### Elements -/

/-- An element width that the register layout of R38 is about: VLEN a multiple of it. -/
structure FitsWidth (c : Params) (W : Nat) : Prop where
  pos : 0 < W
  dvd : W ∣ c.vlen
  le : c.vlen ≤ 65536

namespace FitsWidth

variable {c : Params} {W : Nat} (h : FitsWidth c W)
include h

omit h in
theorem vlen_pos : 0 < c.vlen := Nat.two_pow_pos _

theorem per_mul : c.vlen / W * W = c.vlen := Nat.div_mul_cancel h.dvd

theorem per_pos : 0 < c.vlen / W := by
  have h1 := h.per_mul
  have h2 : 0 < c.vlen := vlen_pos
  refine Nat.pos_of_ne_zero fun h0 => ?_
  rw [h0] at h1; omega

/-- The bits of element `i` lie inside its register. -/
theorem slot_le (i : Nat) : i % (c.vlen / W) * W + W ≤ c.vlen := by
  have h1 : i % (c.vlen / W) + 1 ≤ c.vlen / W := Nat.mod_lt _ h.per_pos
  calc i % (c.vlen / W) * W + W = (i % (c.vlen / W) + 1) * W := by ring
    _ ≤ c.vlen / W * W := Nat.mul_le_mul_right _ h1
    _ = c.vlen := h.per_mul

end FitsWidth

theorem getLsbD_elemOf {c : Params} {W : Nat} (f : VFile) (b i j : Nat) :
    (elemOf c f b W i).getLsbD j =
      (decide (j < W) && (vreg f (b + i / (c.vlen / W))).getLsbD (i % (c.vlen / W) * W + j)) := by
  simp [elemOf, BitVec.getLsbD_extractLsb']

/-- Reading an element back after writing one of the same group. -/
theorem elemOf_setElem {c : Params} {W : Nat} (h : FitsWidth c W) (f : VFile) (b i j : Nat) (val : BitVec W)
    (hi : i < 32 * (c.vlen / W)) (hj : j < 32 * (c.vlen / W)) :
    elemOf c (setElem c f b W i val) b W j = if j = i then val else elemOf c f b W j := by
  have hp := h.per_pos
  have hdi : i / (c.vlen / W) < 32 := Nat.div_lt_of_lt_mul (by rwa [Nat.mul_comm] at hi)
  have hdj : j / (c.vlen / W) < 32 := Nat.div_lt_of_lt_mul (by rwa [Nat.mul_comm] at hj)
  have hsi := h.slot_le i
  have hsj := h.slot_le j
  have hle := h.le
  apply BitVec.eq_of_getLsbD_eq
  intro k hk
  rw [getLsbD_elemOf, setElem, vreg_setVreg]
  by_cases hreg : i / (c.vlen / W) = j / (c.vlen / W)
  · rw [hreg, if_pos rfl, getLsbD_setSlice]
    by_cases hij : j = i
    · subst hij
      have e1 : j % (c.vlen / W) * W + k - j % (c.vlen / W) * W = k := by omega
      rw [if_pos ⟨by omega, by omega, by omega⟩, if_pos rfl, e1]
      simp [hk]
    · have hne : i % (c.vlen / W) ≠ j % (c.vlen / W) := by
        intro he
        exact hij (by rw [← Nat.div_add_mod i (c.vlen / W), ← Nat.div_add_mod j (c.vlen / W), hreg, he])
      rw [if_neg, if_neg hij, getLsbD_elemOf]
      rintro ⟨h1, h2, -⟩
      rcases Nat.lt_or_gt_of_ne hne with hlt | hgt
      · have : (i % (c.vlen / W) + 1) * W ≤ j % (c.vlen / W) * W := Nat.mul_le_mul_right _ hlt
        rw [Nat.add_mul] at this; omega
      · have : (j % (c.vlen / W) + 1) * W ≤ i % (c.vlen / W) * W := Nat.mul_le_mul_right _ hgt
        rw [Nat.add_mul] at this; omega
  · have hne : (b + j / (c.vlen / W)) % 32 ≠ (b + i / (c.vlen / W)) % 32 := by
      generalize i / (c.vlen / W) = x at *
      generalize j / (c.vlen / W) = y at *
      omega
    have hij : j ≠ i := fun e => hreg (by rw [e])
    rw [if_neg hne, if_neg hij, getLsbD_elemOf]

/-- What `writeElems` leaves in its own group: below `n` the values given, the old ones elsewhere. -/
theorem elemOf_writeElems {c : Params} {W : Nat} (h : FitsWidth c W) (f : VFile) (b : Nat)
    (g : Nat → Option (BitVec W)) (n j : Nat) (hn : n ≤ 32 * (c.vlen / W)) (hj : j < 32 * (c.vlen / W)) :
    elemOf c (writeElems c b W g n f) b W j =
      if j < n then (g j).getD (elemOf c f b W j) else elemOf c f b W j := by
  induction n with
  | zero => simp [writeElems]
  | succ n ih =>
    have ih := ih (by omega)
    unfold writeElems
    rcases hg : g n with _ | val
    · simp only [ih]
      by_cases h1 : j = n
      · subst h1; simp [hg]
      · have : j < n + 1 ↔ j < n := by omega
        simp [this]
    · simp only [elemOf_setElem h _ _ _ _ _ (by omega : n < 32 * (c.vlen / W)) hj, ih]
      by_cases h1 : j = n
      · subst h1; simp [hg]
      · have : j < n + 1 ↔ j < n := by omega
        simp [h1, this]

/-- A register that holds none of the elements is left alone. -/
theorem vreg_writeElems {c : Params} {W : Nat} (f : VFile) (b : Nat) (g : Nat → Option (BitVec W)) (n m : Nat)
    (hm : ∀ i < n, m % 32 ≠ (b + i / (c.vlen / W)) % 32) : vreg (writeElems c b W g n f) m = vreg f m := by
  induction n with
  | zero => rfl
  | succ n ih =>
    have ih := ih (fun i hi => hm i (by omega))
    unfold writeElems
    rcases g n with _ | val
    · exact ih
    · simp only [setElem, vreg_setVreg, if_neg (hm n (by omega)), ih]

/-- Writing elements leaves the bits above VLEN zero. -/
theorem writeElems_above {c : Params} {W : Nat} (h : FitsWidth c W) (f : VFile) (b : Nat)
    (g : Nat → Option (BitVec W)) (n : Nat) (hf : ∀ m j, c.vlen ≤ j → (vreg f m).getLsbD j = false) (m j : Nat)
    (hj : c.vlen ≤ j) : (vreg (writeElems c b W g n f) m).getLsbD j = false := by
  induction n generalizing m with
  | zero => exact hf m j hj
  | succ n ih =>
    unfold writeElems
    rcases g n with _ | val
    · exact ih m
    · simp only [setElem, vreg_setVreg]
      split_ifs
      · have := h.slot_le n
        rw [getLsbD_setSlice, if_neg (by omega)]
        exact ih _
      · exact ih m

/-- A bit of a register is a mask element (R40). -/
theorem elemOf_one {c : Params} (f : VFile) (b i : Nat) (hi : i < c.vlen) :
    elemOf c f b 1 i = BitVec.ofBool ((vreg f b).getLsbD i) := by
  apply BitVec.eq_of_getLsbD_eq
  intro j hj
  have h0 : j = 0 := by omega
  subst h0
  rw [getLsbD_elemOf]
  simp [Nat.div_eq_of_lt hi, Nat.mod_eq_of_lt hi]

end Sys2Proof.Machine
end

