-- ==== Sys2Proof/WellFormed.lean ====
section
/-! DEFINITION. The static part of being reserved: an instruction is ill-formed when its fields alone, whatever the
state, make its encoding reserved (R115 (a), (g); R290 and R332 for the register number of a whole-register access).
Every field already lies in its range by its type. An ill-formed instruction still decodes, and its meaning raises
IllegalInstruction (R118). -/

namespace Sys2Proof

/-- R115 (a): the destination of `vadc` and `vsbc` is not `v0`. -/
def notV0 (vd : RegNo) : Bool := vd != 0#5

/-- R115 (g), R47: a masked instruction with a vector destination does not write `v0`. -/
def maskedNotV0 (vd : RegNo) (vm : Bool) : Bool := vm || vd != 0#5

/-- R290, R332: the register of a whole-register access is a multiple of the number of registers moved. -/
def wholeAligned (n : Nat) (r : RegNo) : Bool := r.toNat % n == 0

/-- Not reserved by its fields alone (R115). -/
def Instr.wellFormed : Instr → Bool
  | .vsetvli _ _ _ => true
  | .vsetivli _ _ _ => true
  | .vsetvl _ _ _ => true
  | .vwadduVv vd _ _ vm => maskedNotV0 vd vm
  | .vwadduVx vd _ _ vm => maskedNotV0 vd vm
  | .vwaddVv vd _ _ vm => maskedNotV0 vd vm
  | .vwaddVx vd _ _ vm => maskedNotV0 vd vm
  | .vwsubuVv vd _ _ vm => maskedNotV0 vd vm
  | .vwsubuVx vd _ _ vm => maskedNotV0 vd vm
  | .vwsubVv vd _ _ vm => maskedNotV0 vd vm
  | .vwsubVx vd _ _ vm => maskedNotV0 vd vm
  | .vwadduWv vd _ _ vm => maskedNotV0 vd vm
  | .vwadduWx vd _ _ vm => maskedNotV0 vd vm
  | .vwaddWv vd _ _ vm => maskedNotV0 vd vm
  | .vwaddWx vd _ _ vm => maskedNotV0 vd vm
  | .vwsubuWv vd _ _ vm => maskedNotV0 vd vm
  | .vwsubuWx vd _ _ vm => maskedNotV0 vd vm
  | .vwsubWv vd _ _ vm => maskedNotV0 vd vm
  | .vwsubWx vd _ _ vm => maskedNotV0 vd vm
  | .vzextVf8 vd _ vm => maskedNotV0 vd vm
  | .vsextVf8 vd _ vm => maskedNotV0 vd vm
  | .vzextVf4 vd _ vm => maskedNotV0 vd vm
  | .vsextVf4 vd _ vm => maskedNotV0 vd vm
  | .vzextVf2 vd _ vm => maskedNotV0 vd vm
  | .vsextVf2 vd _ vm => maskedNotV0 vd vm
  | .vadcVvm vd _ _ => notV0 vd
  | .vadcVxm vd _ _ => notV0 vd
  | .vadcVim vd _ _ => notV0 vd
  | .vmadcVvm _ _ _ => true
  | .vmadcVxm _ _ _ => true
  | .vmadcVim _ _ _ => true
  | .vmadcVv _ _ _ => true
  | .vmadcVx _ _ _ => true
  | .vmadcVi _ _ _ => true
  | .vsbcVvm vd _ _ => notV0 vd
  | .vsbcVxm vd _ _ => notV0 vd
  | .vmsbcVvm _ _ _ => true
  | .vmsbcVxm _ _ _ => true
  | .vmsbcVv _ _ _ => true
  | .vmsbcVx _ _ _ => true
  | .vmandMm _ _ _ => true
  | .vle8V vd _ vm => maskedNotV0 vd vm
  | .vle16V vd _ vm => maskedNotV0 vd vm
  | .vle32V vd _ vm => maskedNotV0 vd vm
  | .vle64V vd _ vm => maskedNotV0 vd vm
  | .vlse8V vd _ _ vm => maskedNotV0 vd vm
  | .vlse16V vd _ _ vm => maskedNotV0 vd vm
  | .vlse32V vd _ _ vm => maskedNotV0 vd vm
  | .vlse64V vd _ _ vm => maskedNotV0 vd vm
  | .vluxei8V vd _ _ vm => maskedNotV0 vd vm
  | .vluxei16V vd _ _ vm => maskedNotV0 vd vm
  | .vluxei32V vd _ _ vm => maskedNotV0 vd vm
  | .vluxei64V vd _ _ vm => maskedNotV0 vd vm
  | .vloxei8V vd _ _ vm => maskedNotV0 vd vm
  | .vloxei16V vd _ _ vm => maskedNotV0 vd vm
  | .vloxei32V vd _ _ vm => maskedNotV0 vd vm
  | .vloxei64V vd _ _ vm => maskedNotV0 vd vm
  | .vle8ffV vd _ vm => maskedNotV0 vd vm
  | .vle16ffV vd _ vm => maskedNotV0 vd vm
  | .vle32ffV vd _ vm => maskedNotV0 vd vm
  | .vle64ffV vd _ vm => maskedNotV0 vd vm
  | .vlmV _ _ => true
  | .vl1re8V vd _ => wholeAligned 1 vd
  | .vl1re16V vd _ => wholeAligned 1 vd
  | .vl1re32V vd _ => wholeAligned 1 vd
  | .vl1re64V vd _ => wholeAligned 1 vd
  | .vl2re8V vd _ => wholeAligned 2 vd
  | .vl2re16V vd _ => wholeAligned 2 vd
  | .vl2re32V vd _ => wholeAligned 2 vd
  | .vl2re64V vd _ => wholeAligned 2 vd
  | .vl4re8V vd _ => wholeAligned 4 vd
  | .vl4re16V vd _ => wholeAligned 4 vd
  | .vl4re32V vd _ => wholeAligned 4 vd
  | .vl4re64V vd _ => wholeAligned 4 vd
  | .vl8re8V vd _ => wholeAligned 8 vd
  | .vl8re16V vd _ => wholeAligned 8 vd
  | .vl8re32V vd _ => wholeAligned 8 vd
  | .vl8re64V vd _ => wholeAligned 8 vd
  | .vse8V _ _ _ => true
  | .vse16V _ _ _ => true
  | .vse32V _ _ _ => true
  | .vse64V _ _ _ => true
  | .vsse8V _ _ _ _ => true
  | .vsse16V _ _ _ _ => true
  | .vsse32V _ _ _ _ => true
  | .vsse64V _ _ _ _ => true
  | .vsuxei8V _ _ _ _ => true
  | .vsuxei16V _ _ _ _ => true
  | .vsuxei32V _ _ _ _ => true
  | .vsuxei64V _ _ _ _ => true
  | .vsoxei8V _ _ _ _ => true
  | .vsoxei16V _ _ _ _ => true
  | .vsoxei32V _ _ _ _ => true
  | .vsoxei64V _ _ _ _ => true
  | .vsmV _ _ => true
  | .vs1rV vs3 _ => wholeAligned 1 vs3
  | .vs2rV vs3 _ => wholeAligned 2 vs3
  | .vs4rV vs3 _ => wholeAligned 4 vs3
  | .vs8rV vs3 _ => wholeAligned 8 vs3

end Sys2Proof
end

