-- ==== Sys2Proof/Laws/Encoding.lean ====
section
/-! SUPPORT. The fields of an encoded word, and a word as the join of its fields (R92, R96, R100). -/

namespace Sys2Proof

/-! ### One bit of each format -/

theorem getLsbD_encOpV (f6 : BitVec 6) (vm : Bool) (vs2 vs1 : RegNo) (f3 : BitVec 3) (vd : RegNo) (i : Nat) :
    (encOpV f6 vm vs2 vs1 f3 vd).getLsbD i =
      if i < 7 then (0b1010111#7).getLsbD i else if i < 12 then vd.getLsbD (i - 7)
      else if i < 15 then f3.getLsbD (i - 12) else if i < 20 then vs1.getLsbD (i - 15)
      else if i < 25 then vs2.getLsbD (i - 20) else if i < 26 then vm
      else f6.getLsbD (i - 26) := by
  show @BitVec.getLsbD (6 + 1 + 5 + 5 + 3 + 5 + 7) _ i = _
  simp only [encOpV, BitVec.getLsbD_append, BitVec.getLsbD_ofBool, Nat.sub_sub]
  norm_num
  split_ifs <;> first | rfl | omega | simp_all

theorem getLsbD_encMem (op : BitVec 7) (nf : BitVec 3) (mop : BitVec 2) (vm : Bool) (b24 rs1 : RegNo)
    (width : BitVec 3) (vd : RegNo) (i : Nat) :
    (encMem op nf mop vm b24 rs1 width vd).getLsbD i =
      if i < 7 then op.getLsbD i else if i < 12 then vd.getLsbD (i - 7)
      else if i < 15 then width.getLsbD (i - 12) else if i < 20 then rs1.getLsbD (i - 15)
      else if i < 25 then b24.getLsbD (i - 20) else if i < 26 then vm
      else if i < 28 then mop.getLsbD (i - 26) else if i < 29 then false
      else nf.getLsbD (i - 29) := by
  show @BitVec.getLsbD (3 + 1 + 2 + 1 + 5 + 5 + 3 + 5 + 7) _ i = _
  simp only [encMem, BitVec.getLsbD_append, BitVec.getLsbD_ofBool, Nat.sub_sub]
  norm_num
  have h29 : 28 ≤ i → ((i - 28 = 0) ↔ i < 29) := by omega
  split_ifs <;> first | rfl | omega | simp_all

/-! ### The fields of each format -/

section

variable (f6 : BitVec 6) (vm : Bool) (vs2 vs1 : RegNo) (f3 : BitVec 3) (vd : RegNo)

@[simp] theorem fOpcode_encOpV : fOpcode (encOpV f6 vm vs2 vs1 f3 vd) = 0b1010111#7 := by
  apply BitVec.eq_of_getLsbD_eq
  intro i hi
  simp only [fOpcode, BitVec.getLsbD_extractLsb', getLsbD_encOpV]
  grind

@[simp] theorem fRd_encOpV : fRd (encOpV f6 vm vs2 vs1 f3 vd) = vd := by
  apply BitVec.eq_of_getLsbD_eq
  intro i hi
  simp only [fRd, BitVec.getLsbD_extractLsb', getLsbD_encOpV]
  grind

@[simp] theorem fFunct3_encOpV : fFunct3 (encOpV f6 vm vs2 vs1 f3 vd) = f3 := by
  apply BitVec.eq_of_getLsbD_eq
  intro i hi
  simp only [fFunct3, BitVec.getLsbD_extractLsb', getLsbD_encOpV]
  grind

@[simp] theorem fRs1_encOpV : fRs1 (encOpV f6 vm vs2 vs1 f3 vd) = vs1 := by
  apply BitVec.eq_of_getLsbD_eq
  intro i hi
  simp only [fRs1, BitVec.getLsbD_extractLsb', getLsbD_encOpV]
  grind

@[simp] theorem fRs2_encOpV : fRs2 (encOpV f6 vm vs2 vs1 f3 vd) = vs2 := by
  apply BitVec.eq_of_getLsbD_eq
  intro i hi
  simp only [fRs2, BitVec.getLsbD_extractLsb', getLsbD_encOpV]
  grind

@[simp] theorem fFunct6_encOpV : fFunct6 (encOpV f6 vm vs2 vs1 f3 vd) = f6 := by
  apply BitVec.eq_of_getLsbD_eq
  intro i hi
  simp only [fFunct6, BitVec.getLsbD_extractLsb', getLsbD_encOpV]
  grind

@[simp] theorem fVm_encOpV : fVm (encOpV f6 vm vs2 vs1 f3 vd) = vm := by
  unfold fVm; rw [getLsbD_encOpV]; rfl

end

section

variable (op : BitVec 7) (nf : BitVec 3) (mop : BitVec 2) (vm : Bool) (b24 rs1 : RegNo) (width : BitVec 3) (vd : RegNo)

@[simp] theorem fOpcode_encMem : fOpcode (encMem op nf mop vm b24 rs1 width vd) = op := by
  apply BitVec.eq_of_getLsbD_eq
  intro i hi
  simp only [fOpcode, BitVec.getLsbD_extractLsb', getLsbD_encMem]
  grind

@[simp] theorem fRd_encMem : fRd (encMem op nf mop vm b24 rs1 width vd) = vd := by
  apply BitVec.eq_of_getLsbD_eq
  intro i hi
  simp only [fRd, BitVec.getLsbD_extractLsb', getLsbD_encMem]
  grind

@[simp] theorem fFunct3_encMem : fFunct3 (encMem op nf mop vm b24 rs1 width vd) = width := by
  apply BitVec.eq_of_getLsbD_eq
  intro i hi
  simp only [fFunct3, BitVec.getLsbD_extractLsb', getLsbD_encMem]
  grind

@[simp] theorem fRs1_encMem : fRs1 (encMem op nf mop vm b24 rs1 width vd) = rs1 := by
  apply BitVec.eq_of_getLsbD_eq
  intro i hi
  simp only [fRs1, BitVec.getLsbD_extractLsb', getLsbD_encMem]
  grind

@[simp] theorem fRs2_encMem : fRs2 (encMem op nf mop vm b24 rs1 width vd) = b24 := by
  apply BitVec.eq_of_getLsbD_eq
  intro i hi
  simp only [fRs2, BitVec.getLsbD_extractLsb', getLsbD_encMem]
  grind

@[simp] theorem fMop_encMem : fMop (encMem op nf mop vm b24 rs1 width vd) = mop := by
  apply BitVec.eq_of_getLsbD_eq
  intro i hi
  simp only [fMop, BitVec.getLsbD_extractLsb', getLsbD_encMem]
  grind

@[simp] theorem fNf_encMem : fNf (encMem op nf mop vm b24 rs1 width vd) = nf := by
  apply BitVec.eq_of_getLsbD_eq
  intro i hi
  simp only [fNf, BitVec.getLsbD_extractLsb', getLsbD_encMem]
  grind

@[simp] theorem fVm_encMem : fVm (encMem op nf mop vm b24 rs1 width vd) = vm := by
  unfold fVm; rw [getLsbD_encMem]; rfl

@[simp] theorem fMew_encMem : fMew (encMem op nf mop vm b24 rs1 width vd) = false := by
  unfold fMew; rw [getLsbD_encMem]; rfl

end

/-! ### The configuration formats -/

theorem getLsbD_encVsetvli (rd rs1 : RegNo) (zimm : BitVec 11) (i : Nat) :
    (encVsetvli rd rs1 zimm).getLsbD i =
      if i < 7 then (0b1010111#7).getLsbD i else if i < 12 then (rd).getLsbD (i - 7) else 
      if i < 15 then (0b111#3).getLsbD (i - 12) else if i < 20 then (rs1).getLsbD (i - 15) else 
      if i < 31 then (zimm).getLsbD (i - 20) else (0#1).getLsbD (i - 31) := by
  show @BitVec.getLsbD (1 + 11 + 5 + 3 + 5 + 7) _ i = _
  simp only [encVsetvli, BitVec.getLsbD_append, Nat.sub_sub]
  norm_num
  have h31 : 20 ≤ i → ((i - 20 < 11) ↔ i < 31) := by omega
  split_ifs <;> first | rfl | omega | simp_all

theorem getLsbD_encVsetivli (rd uimm : RegNo) (zimm : BitVec 10) (i : Nat) :
    (encVsetivli rd uimm zimm).getLsbD i =
      if i < 7 then (0b1010111#7).getLsbD i else if i < 12 then (rd).getLsbD (i - 7) else 
      if i < 15 then (0b111#3).getLsbD (i - 12) else if i < 20 then (uimm).getLsbD (i - 15) else 
      if i < 30 then (zimm).getLsbD (i - 20) else (0b11#2).getLsbD (i - 30) := by
  show @BitVec.getLsbD (2 + 10 + 5 + 3 + 5 + 7) _ i = _
  simp only [encVsetivli, BitVec.getLsbD_append, Nat.sub_sub]
  norm_num
  split_ifs <;> first | rfl | omega

theorem getLsbD_encVsetvl (rd rs1 rs2 : RegNo) (i : Nat) :
    (encVsetvl rd rs1 rs2).getLsbD i =
      if i < 7 then (0b1010111#7).getLsbD i else if i < 12 then (rd).getLsbD (i - 7) else 
      if i < 15 then (0b111#3).getLsbD (i - 12) else if i < 20 then (rs1).getLsbD (i - 15) else 
      if i < 25 then (rs2).getLsbD (i - 20) else (0b1000000#7).getLsbD (i - 25) := by
  show @BitVec.getLsbD (7 + 5 + 5 + 3 + 5 + 7) _ i = _
  simp only [encVsetvl, BitVec.getLsbD_append, Nat.sub_sub]
  norm_num
  split_ifs <;> first | rfl | omega

@[simp] theorem fOpcode_encVsetvli (rd rs1 : RegNo) (zimm : BitVec 11) : fOpcode (encVsetvli rd rs1 zimm) = 0b1010111#7 := by
  apply BitVec.eq_of_getLsbD_eq
  intro i hi
  simp only [fOpcode, BitVec.getLsbD_extractLsb', getLsbD_encVsetvli]
  grind

@[simp] theorem fRd_encVsetvli (rd rs1 : RegNo) (zimm : BitVec 11) : fRd (encVsetvli rd rs1 zimm) = rd := by
  apply BitVec.eq_of_getLsbD_eq
  intro i hi
  simp only [fRd, BitVec.getLsbD_extractLsb', getLsbD_encVsetvli]
  grind

@[simp] theorem fFunct3_encVsetvli (rd rs1 : RegNo) (zimm : BitVec 11) : fFunct3 (encVsetvli rd rs1 zimm) = 0b111#3 := by
  apply BitVec.eq_of_getLsbD_eq
  intro i hi
  simp only [fFunct3, BitVec.getLsbD_extractLsb', getLsbD_encVsetvli]
  grind

@[simp] theorem fRs1_encVsetvli (rd rs1 : RegNo) (zimm : BitVec 11) : fRs1 (encVsetvli rd rs1 zimm) = rs1 := by
  apply BitVec.eq_of_getLsbD_eq
  intro i hi
  simp only [fRs1, BitVec.getLsbD_extractLsb', getLsbD_encVsetvli]
  grind

@[simp] theorem fOpcode_encVsetivli (rd uimm : RegNo) (zimm : BitVec 10) : fOpcode (encVsetivli rd uimm zimm) = 0b1010111#7 := by
  apply BitVec.eq_of_getLsbD_eq
  intro i hi
  simp only [fOpcode, BitVec.getLsbD_extractLsb', getLsbD_encVsetivli]
  grind

@[simp] theorem fRd_encVsetivli (rd uimm : RegNo) (zimm : BitVec 10) : fRd (encVsetivli rd uimm zimm) = rd := by
  apply BitVec.eq_of_getLsbD_eq
  intro i hi
  simp only [fRd, BitVec.getLsbD_extractLsb', getLsbD_encVsetivli]
  grind

@[simp] theorem fFunct3_encVsetivli (rd uimm : RegNo) (zimm : BitVec 10) : fFunct3 (encVsetivli rd uimm zimm) = 0b111#3 := by
  apply BitVec.eq_of_getLsbD_eq
  intro i hi
  simp only [fFunct3, BitVec.getLsbD_extractLsb', getLsbD_encVsetivli]
  grind

@[simp] theorem fRs1_encVsetivli (rd uimm : RegNo) (zimm : BitVec 10) : fRs1 (encVsetivli rd uimm zimm) = uimm := by
  apply BitVec.eq_of_getLsbD_eq
  intro i hi
  simp only [fRs1, BitVec.getLsbD_extractLsb', getLsbD_encVsetivli]
  grind

@[simp] theorem fOpcode_encVsetvl (rd rs1 rs2 : RegNo) : fOpcode (encVsetvl rd rs1 rs2) = 0b1010111#7 := by
  apply BitVec.eq_of_getLsbD_eq
  intro i hi
  simp only [fOpcode, BitVec.getLsbD_extractLsb', getLsbD_encVsetvl]
  grind

@[simp] theorem fRd_encVsetvl (rd rs1 rs2 : RegNo) : fRd (encVsetvl rd rs1 rs2) = rd := by
  apply BitVec.eq_of_getLsbD_eq
  intro i hi
  simp only [fRd, BitVec.getLsbD_extractLsb', getLsbD_encVsetvl]
  grind

@[simp] theorem fFunct3_encVsetvl (rd rs1 rs2 : RegNo) : fFunct3 (encVsetvl rd rs1 rs2) = 0b111#3 := by
  apply BitVec.eq_of_getLsbD_eq
  intro i hi
  simp only [fFunct3, BitVec.getLsbD_extractLsb', getLsbD_encVsetvl]
  grind

@[simp] theorem fRs1_encVsetvl (rd rs1 rs2 : RegNo) : fRs1 (encVsetvl rd rs1 rs2) = rs1 := by
  apply BitVec.eq_of_getLsbD_eq
  intro i hi
  simp only [fRs1, BitVec.getLsbD_extractLsb', getLsbD_encVsetvl]
  grind

@[simp] theorem zimm_encVsetvli (rd rs1 : RegNo) (zimm : BitVec 11) :
    (encVsetvli rd rs1 zimm).extractLsb' 20 11 = zimm := by
  apply BitVec.eq_of_getLsbD_eq
  intro i hi
  simp only [BitVec.getLsbD_extractLsb', getLsbD_encVsetvli]
  grind

@[simp] theorem zimm_encVsetivli (rd uimm : RegNo) (zimm : BitVec 10) :
    (encVsetivli rd uimm zimm).extractLsb' 20 10 = zimm := by
  apply BitVec.eq_of_getLsbD_eq
  intro i hi
  simp only [BitVec.getLsbD_extractLsb', getLsbD_encVsetivli]
  grind

@[simp] theorem fRs2_encVsetvl (rd rs1 rs2 : RegNo) : fRs2 (encVsetvl rd rs1 rs2) = rs2 := by
  apply BitVec.eq_of_getLsbD_eq
  intro i hi
  simp only [fRs2, BitVec.getLsbD_extractLsb', getLsbD_encVsetvl]
  grind

@[simp] theorem high_encVsetvl (rd rs1 rs2 : RegNo) : (encVsetvl rd rs1 rs2).extractLsb' 25 5 = 0#5 := by
  apply BitVec.eq_of_getLsbD_eq
  intro i hi
  simp only [BitVec.getLsbD_extractLsb', getLsbD_encVsetvl]
  interval_cases i <;> rfl

@[simp] theorem bit31_encVsetvli (rd rs1 : RegNo) (zimm : BitVec 11) :
    (encVsetvli rd rs1 zimm)[31] = false := by
  rw [← BitVec.getLsbD_eq_getElem, getLsbD_encVsetvli]; rfl

@[simp] theorem bit31_encVsetivli (rd uimm : RegNo) (zimm : BitVec 10) :
    (encVsetivli rd uimm zimm)[31] = true := by
  rw [← BitVec.getLsbD_eq_getElem, getLsbD_encVsetivli]; rfl

@[simp] theorem bit30_encVsetivli (rd uimm : RegNo) (zimm : BitVec 10) :
    (encVsetivli rd uimm zimm)[30] = true := by
  rw [← BitVec.getLsbD_eq_getElem, getLsbD_encVsetivli]; rfl

@[simp] theorem bit31_encVsetvl (rd rs1 rs2 : RegNo) :
    (encVsetvl rd rs1 rs2)[31] = true := by
  rw [← BitVec.getLsbD_eq_getElem, getLsbD_encVsetvl]; rfl

@[simp] theorem bit30_encVsetvl (rd rs1 rs2 : RegNo) :
    (encVsetvl rd rs1 rs2)[30] = false := by
  rw [← BitVec.getLsbD_eq_getElem, getLsbD_encVsetvl]; rfl

/-! ### Words and bytes (R62) -/

@[simp] theorem wordOfBytes_byteOfWord (w : InsnWord) :
    wordOfBytes (byteOfWord w 0) (byteOfWord w 1) (byteOfWord w 2) (byteOfWord w 3) = w := by
  apply BitVec.eq_of_getLsbD_eq
  intro i hi
  show @BitVec.getLsbD (8 + 8 + 8 + 8) _ i = _
  simp only [wordOfBytes, byteOfWord, BitVec.getLsbD_append, BitVec.getLsbD_extractLsb']
  grind

/-! ### A word is the join of its fields -/

theorem fields_encOpV {w : InsnWord} (h : fOpcode w = 0b1010111#7) :
    encOpV (fFunct6 w) (fVm w) (fRs2 w) (fRs1 w) (fFunct3 w) (fRd w) = w := by
  apply BitVec.eq_of_getLsbD_eq
  intro i hi
  rw [getLsbD_encOpV, ← h]
  simp only [fOpcode, fFunct6, fRs2, fRs1, fFunct3, fRd, fVm, BitVec.getLsbD_extractLsb']
  grind

theorem fields_encMem {w : InsnWord} (h : fMew w = false) :
    encMem (fOpcode w) (fNf w) (fMop w) (fVm w) (fRs2 w) (fRs1 w) (fFunct3 w) (fRd w) = w := by
  apply BitVec.eq_of_getLsbD_eq
  intro i hi
  rw [getLsbD_encMem]
  simp only [fMew] at h
  simp only [fOpcode, fNf, fMop, fRs2, fRs1, fFunct3, fRd, fVm, BitVec.getLsbD_extractLsb']
  grind

theorem fields_encVsetvli {w : InsnWord} (h : fOpcode w = 0b1010111#7) (h3 : fFunct3 w = 0b111#3)
    (h31 : w[31] = false) : encVsetvli (fRd w) (fRs1 w) (w.extractLsb' 20 11) = w := by
  apply BitVec.eq_of_getLsbD_eq
  intro i hi
  rw [getLsbD_encVsetvli, ← h, ← h3]
  rw [← BitVec.getLsbD_eq_getElem] at h31
  simp only [fOpcode, fRs1, fFunct3, fRd, BitVec.getLsbD_extractLsb']
  have h0 : (0#1).getLsbD (i - 31) = false := by simp
  rw [h0]
  grind

theorem fields_encVsetivli {w : InsnWord} (h : fOpcode w = 0b1010111#7) (h3 : fFunct3 w = 0b111#3)
    (h31 : w[31] = true) (h30 : w[30] = true) :
    encVsetivli (fRd w) (fRs1 w) (w.extractLsb' 20 10) = w := by
  have e : w.extractLsb' 30 2 = 0b11#2 := by
    apply BitVec.eq_of_getLsbD_eq
    intro i hi
    simp only [BitVec.getLsbD_extractLsb']
    interval_cases i <;> simp [h30, h31]
  apply BitVec.eq_of_getLsbD_eq
  intro i hi
  rw [getLsbD_encVsetivli, ← h, ← h3, ← e]
  simp only [fOpcode, fRs1, fFunct3, fRd, BitVec.getLsbD_extractLsb']
  grind

theorem fields_encVsetvl {w : InsnWord} (h : fOpcode w = 0b1010111#7) (h3 : fFunct3 w = 0b111#3)
    (h31 : w[31] = true) (h30 : w[30] = false) (h25 : w.extractLsb' 25 5 = 0#5) :
    encVsetvl (fRd w) (fRs1 w) (fRs2 w) = w := by
  have e : w.extractLsb' 25 7 = 0b1000000#7 := by
    apply BitVec.eq_of_getLsbD_eq
    intro i hi
    have h5 : (w.extractLsb' 25 5).getLsbD i = false := by rw [h25]; simp
    simp only [BitVec.getLsbD_extractLsb'] at h5 ⊢
    interval_cases i <;> simp_all
  apply BitVec.eq_of_getLsbD_eq
  intro i hi
  rw [getLsbD_encVsetvl, ← h, ← h3, ← e]
  simp only [fOpcode, fRs1, fRs2, fFunct3, fRd, BitVec.getLsbD_extractLsb']
  grind

end Sys2Proof
end

