-- ==== Sys2Proof/Laws/Vtype.lean ====
section
/-! SUPPORT. The arithmetic of VLEN, SEW, LMUL, EMUL and VLMAX: all are powers of two (R5, R6, R33 to R35, R41). -/

namespace Sys2Proof.Machine

open Sys2Proof.Config

theorem sewOf_eq (x : BitVec 3) : sewOf x = 2 ^ (3 + x.toNat) := by
  rw [sewOf, Nat.pow_add]

theorem sewOf_pos (x : BitVec 3) : 0 < sewOf x := by rw [sewOf_eq]; exact Nat.two_pow_pos _

/-- LMUL in eighths is a power of two, but for the reserved setting. -/
theorem lmul8Of_eq {x : BitVec 3} (h : x ≠ 0b100#3) : ∃ k ≤ 6, lmul8Of x = 2 ^ k := by
  revert h; revert x; decide

theorem supportsVtype_iff {c : Params} {vsew vlmul : BitVec 3} :
    supportsVtype c vsew vlmul = true ↔
      vsew.toNat ≤ 3 ∧ vlmul ≠ 0b100#3 ∧ sewOf vsew ≤ c.elen ∧
        (requiredVtype c vsew vlmul = true ∨
          (vsew, vlmul) ∈ c.extraVtypes ∧ 1 ≤ vlmaxOf c vsew vlmul) := by
  simp [supportsVtype, and_assoc]

theorem elen_le_vlen {c : Params} (h : c.wf) : c.elen ≤ c.vlen := Nat.pow_le_pow_right (by decide) h.2.1

theorem vlen_le {c : Params} (h : c.wf) : c.vlen ≤ 65536 :=
  (Nat.pow_le_pow_right (by decide) h.2.2 : 2 ^ c.lgVlen ≤ 2 ^ 16)

/-- VLMAX is at least 1 for every supported setting (R35). -/
theorem one_le_vlmaxOf {c : Params} {vsew vlmul : BitVec 3} (hc : c.wf) (h : supportsVtype c vsew vlmul = true) :
    1 ≤ vlmaxOf c vsew vlmul := by
  obtain ⟨-, -, h3, h4 | h4⟩ := supportsVtype_iff.mp h
  · have hpos := sewOf_pos vsew
    have hle := elen_le_vlen hc
    simp only [requiredVtype, Bool.and_eq_true, Bool.or_eq_true, decide_eq_true_eq] at h4
    rw [vlmaxOf, Nat.one_le_div_iff (by omega)]
    rcases h4.2 with h5 | h5
    · exact Nat.mul_le_mul h5 (by omega)
    · have h6 : 8 * sewOf vsew ≤ lmul8Of vlmul * c.elen := by omega
      exact h6.trans (Nat.mul_le_mul_left _ hle)
  · exact h4.2

/-- A power of two no larger than VLEN is a width the register layout fits. -/
theorem fitsWidth_pow {c : Params} (hc : c.wf) {k : Nat} (h : 2 ^ k ≤ c.vlen) : FitsWidth c (2 ^ k) where
  pos := Nat.two_pow_pos k
  dvd := Nat.pow_dvd_pow 2 ((Nat.pow_le_pow_iff_right (by decide)).mp h)
  le := vlen_le hc

theorem fitsWidth_one {c : Params} (hc : c.wf) : FitsWidth c 1 := ⟨by decide, one_dvd _, vlen_le hc⟩

/-- The element widths a load or store can encode (R101). -/
def isEncodedWidth (w : Nat) : Prop := w = 8 ∨ w = 16 ∨ w = 32 ∨ w = 64

theorem isEncodedWidth.eq_pow {w : Nat} (h : isEncodedWidth w) : ∃ k, 3 ≤ k ∧ k ≤ 6 ∧ w = 2 ^ k := by
  rcases h with rfl | rfl | rfl | rfl
  · exact ⟨3, by decide⟩
  · exact ⟨4, by decide⟩
  · exact ⟨5, by decide⟩
  · exact ⟨6, by decide⟩

theorem isEncodedWidth.fits {c : Params} {w : Nat} (h : isEncodedWidth w) (hc : c.wf) (hw : w ≤ c.vlen) :
    FitsWidth c w := by
  obtain ⟨k, -, -, rfl⟩ := h.eq_pow
  exact fitsWidth_pow hc hw

/-- SEW is an encodable width when the setting is supported (R33). -/
theorem isEncodedWidth_sewOf {vsew : BitVec 3} (h : vsew.toNat ≤ 3) : isEncodedWidth (sewOf vsew) := by
  revert h; revert vsew; unfold isEncodedWidth; decide

theorem lmul8Of_le (x : BitVec 3) : lmul8Of x ≤ 64 := by revert x; decide

theorem lmul8Of_four : lmul8Of 0b100#3 = 0 := rfl

/-- VLMAX never exceeds VLEN (R30). -/
theorem vlmaxOf_le (c : Params) (vsew vlmul : BitVec 3) : vlmaxOf c vsew vlmul ≤ c.vlen := by
  have h1 := lmul8Of_le vlmul
  have h2 : 8 ≤ sewOf vsew := by rw [sewOf_eq, Nat.pow_add]; have := Nat.two_pow_pos vsew.toNat; omega
  refine Nat.div_le_of_le_mul ?_
  exact Nat.mul_le_mul (by omega) le_rfl

namespace State

variable {s : State}

theorem vtypeSupported.sew_width (h : s.vtypeSupported) : isEncodedWidth s.sew :=
  isEncodedWidth_sewOf (supportsVtype_iff.mp h).1

theorem vtypeSupported.sew_le (h : s.vtypeSupported) : s.sew ≤ s.cfg.elen := (supportsVtype_iff.mp h).2.2.1

theorem vtypeSupported.fits_sew (h : s.vtypeSupported) (hc : s.cfg.wf) : FitsWidth s.cfg s.sew :=
  h.sew_width.fits hc (h.sew_le.trans (elen_le_vlen hc))

theorem vtypeSupported.one_le_vlmax (h : s.vtypeSupported) (hc : s.cfg.wf) : 1 ≤ s.vlmax := one_le_vlmaxOf hc h

theorem vtypeSupported.fits_two_sew (h : s.vtypeSupported) (hc : s.cfg.wf) (h2 : 2 * s.sew ≤ s.cfg.elen) :
    FitsWidth s.cfg (2 * s.sew) := by
  obtain ⟨k, -, -, hk⟩ := h.sew_width.eq_pow
  have e : 2 * s.sew = 2 ^ (k + 1) := by rw [hk, Nat.pow_succ]; omega
  rw [e] at h2 ⊢
  exact fitsWidth_pow hc (h2.trans (elen_le_vlen hc))

/-- Where VLMAX is at least 1, LMUL is not the reserved setting. -/
theorem lmul8_eq (hmax : 1 ≤ s.vlmax) : ∃ l ≤ 6, s.lmul8 = 2 ^ l := by
  refine lmul8Of_eq fun h => ?_
  unfold State.vlmax vlmaxOf at hmax
  rw [h, lmul8Of_four] at hmax
  simp at hmax

/-- EMUL is a power of two where it is at least 1/8 (R41). -/
theorem emul8_eq (hmax : 1 ≤ s.vlmax) {k : Nat} (h1 : 1 ≤ s.emul8 (2 ^ k)) :
    ∃ l, s.lmul8 = 2 ^ l ∧ 3 + (fieldVsew s.vtype).toNat ≤ l + k ∧
      s.emul8 (2 ^ k) = 2 ^ (l + k - (3 + (fieldVsew s.vtype).toNat)) := by
  obtain ⟨l, -, hl⟩ := lmul8_eq hmax
  have hem : s.emul8 (2 ^ k) = 2 ^ (l + k) / 2 ^ (3 + (fieldVsew s.vtype).toNat) := by
    unfold State.emul8 State.sew; rw [hl, sewOf_eq, ← Nat.pow_add]
  have hek : 3 + (fieldVsew s.vtype).toNat ≤ l + k := by
    by_contra hlt
    rw [hem, Nat.div_eq_of_lt (Nat.pow_lt_pow_right (by decide) (by omega))] at h1
    omega
  exact ⟨l, hl, hek, by rw [hem, Nat.pow_div hek (by decide)]⟩

theorem emul8_sew : s.emul8 s.sew = s.lmul8 := Nat.mul_div_cancel _ (sewOf_pos _)

theorem emul8_two_sew : s.emul8 (2 * s.sew) = 2 * s.lmul8 := by
  unfold State.emul8
  rw [show s.lmul8 * (2 * s.sew) = 2 * s.lmul8 * s.sew by ring]
  exact Nat.mul_div_cancel _ (sewOf_pos _)

theorem sew_pow : ∃ k, s.sew = 2 ^ k := ⟨_, sewOf_eq _⟩

theorem two_sew_pow : ∃ k, 2 * s.sew = 2 ^ k := by
  obtain ⟨k, hk⟩ := sew_pow (s := s)
  exact ⟨k + 1, by rw [hk, Nat.pow_succ]; omega⟩

/-- The element positions of a destination lie inside its register group (R38, R41, R42). -/
theorem slots_le (hmax : 1 ≤ s.vlmax) {k : Nat} (hk : 2 ^ k ≤ s.cfg.vlen)
    (h1 : 1 ≤ s.emul8 (2 ^ k)) : s.slots (2 ^ k) ≤ nregs (s.emul8 (2 ^ k)) * (s.cfg.vlen / 2 ^ k) := by
  obtain ⟨l, hl, hek, hem⟩ := emul8_eq hmax h1
  set e := 3 + (fieldVsew s.vtype).toNat with he
  have hvl : s.cfg.vlen = 2 ^ s.cfg.lgVlen := rfl
  have hkv : k ≤ s.cfg.lgVlen := (Nat.pow_le_pow_iff_right (by decide)).mp (hvl ▸ hk)
  have hvm : s.vlmax = 2 ^ l * 2 ^ s.cfg.lgVlen / (8 * 2 ^ e) := by
    show lmul8Of _ * s.cfg.vlen / (8 * sewOf _) = _
    rw [show lmul8Of (fieldVlmul s.vtype) = 2 ^ l from hl, hvl, sewOf_eq]
  have e8 : (8 : Nat) * 2 ^ e = 2 ^ (3 + e) := by rw [Nat.pow_add 2 3 e]
  rw [e8, ← Nat.pow_add] at hvm
  have hle : 3 + e ≤ l + s.cfg.lgVlen := by
    by_contra hlt
    rw [hvm, Nat.div_eq_of_lt (Nat.pow_lt_pow_right (by decide) (by omega))] at hmax
    omega
  rw [Nat.pow_div hle (by decide)] at hvm
  rw [hem, hvl, Nat.pow_div hkv (by decide)]
  unfold State.slots nregs
  rw [hvm, hvl, Nat.pow_div hkv (by decide)]
  by_cases h3 : 3 ≤ l + k - e
  · have e3 : 2 ^ (l + k - e) / 8 = 2 ^ (l + k - e - 3) := Nat.pow_div (n := 3) h3 (by decide)
    have hp : 0 < 2 ^ (l + k - e - 3) := Nat.two_pow_pos _
    rw [e3, Nat.max_eq_right hp, ← Nat.pow_add]
    exact max_le (Nat.pow_le_pow_right (by decide) (by omega)) (Nat.pow_le_pow_right (by decide) (by omega))
  · have e3 : 2 ^ (l + k - e) / 8 = 0 :=
      Nat.div_eq_of_lt (Nat.pow_lt_pow_right (n := 3) (by decide) (by omega) : 2 ^ (l + k - e) < 2 ^ 3)
    rw [e3, show max 1 0 = 1 from rfl, Nat.one_mul]
    exact max_le (Nat.pow_le_pow_right (by decide) (by omega)) le_rfl

end State

/-! ### Register groups (R39) -/

theorem groupOk_iff {c : Params} {b : RegNo} {emul8 eew : Nat} :
    groupOk c b emul8 eew = true ↔
      1 ≤ emul8 ∧ emul8 ≤ 64 ∧ 8 ≤ eew ∧ eew ≤ c.elen ∧ b.toNat % nregs emul8 = 0 := by simp [groupOk]

/-- An aligned group of 1, 2, 4 or 8 registers ends at `v31` at the latest. -/
theorem aligned_add_le {b : RegNo} {m : Nat} (hm : m = 1 ∨ m = 2 ∨ m = 4 ∨ m = 8) (h : b.toNat % m = 0) :
    b.toNat + m ≤ 32 := by
  have := b.isLt
  rcases hm with rfl | rfl | rfl | rfl <;> omega

/-- The number of registers of a group in order. -/
theorem nregs_cases {j : Nat} (h : 2 ^ j ≤ 64) :
    nregs (2 ^ j) = 1 ∨ nregs (2 ^ j) = 2 ∨ nregs (2 ^ j) = 4 ∨ nregs (2 ^ j) = 8 := by
  have hj : j ≤ 6 := (Nat.pow_le_pow_iff_right (m := 6) (a := 2) (by decide)).mp h
  unfold nregs
  interval_cases j <;> decide

/-- A destination group in order lies inside the register file, and so do its element positions. -/
theorem State.group_fits {s : State} {vd : RegNo} {k eew : Nat} (hmax : 1 ≤ s.vlmax)
    (hg : groupOk s.cfg vd (s.emul8 (2 ^ k)) eew = true) :
    vd.toNat + nregs (s.emul8 (2 ^ k)) ≤ 32 ∧ nregs (s.emul8 (2 ^ k)) ≤ 8 := by
  obtain ⟨h1, h2, -, -, h5⟩ := groupOk_iff.mp hg
  obtain ⟨l, -, -, he⟩ := emul8_eq hmax h1
  rw [he] at h2 h5 ⊢
  have hc := nregs_cases h2
  exact ⟨aligned_add_le hc h5, by omega⟩

end Sys2Proof.Machine
end

