-- ==== Sys2Proof/Laws/Loops.lean ====
section
/-! SUPPORT. For each shared operation, once, what it does when it answers: the element loops of the arithmetic
instructions, of the loads and of the stores, in the terms of Safety.lean. -/

namespace Sys2Proof.Machine

open Sys2Proof.Config

/-! ### Completion and traps -/

theorem completed_complete (s u : State) (hcfg : u.cfg = s.cfg) (hpc : u.pc = s.pc)
    (hm : { u.mstatus with vs := .dirty } = { s.mstatus with vs := .dirty }) (h1 : u.vxsat = s.vxsat)
    (h2 : u.vxrm = s.vxrm) (h3 : u.priv = s.priv) (h4 : u.mepc = s.mepc) (h5 : u.mcause = s.mcause)
    (h6 : u.mtval = s.mtval) (h7 : u.mtvec = s.mtvec) (h8 : u.medeleg = s.medeleg) (h9 : u.sepc = s.sepc)
    (h10 : u.scause = s.scause) (h11 : u.stval = s.stval) (h12 : u.stvec = s.stvec) (h13 : u.misa = s.misa) :
    Completed s u.complete := by
  constructor <;> simp_all

/-- What taking an exception does (R350, R356). -/
theorem tookTrap_takeTrap (s : State) (c : Cause) (tval : XWord) : TookTrap s (s.takeTrap c tval) c tval := by
  constructor
  · simp
  · intro h; rw [State.takeTrap_machine h]; simp
  · intro h; rw [State.takeTrap_supervisor h]; simp
  all_goals first | simp | skip
  · intro r; simp [State.readX]
  · exact ⟨by simp, by simp⟩

/-- What an IllegalInstruction does (R352). -/
theorem illegalDone_illegal (s : State) (insn : InsnWord) : IllegalDone s (s.illegal insn) insn where
  trap := tookTrap_takeTrap s _ _
  vstart := by simp
  vs := by simp
  vectors := fun r => by simp
  memory := ⟨fun a => by simp, by simp⟩

/-- What a memory exception at element `i` does to the control state (R253, R313, R357). -/
theorem tookTrap_elemTrap {s u : State} (i : Nat) (c : Cause) (tval : XWord) (hcfg : u.cfg = s.cfg) (hx : u.x = s.x)
    (hpc : u.pc = s.pc) (hm : u.mstatus = s.mstatus) (h1 : u.vxsat = s.vxsat) (h2 : u.vxrm = s.vxrm)
    (h3 : u.priv = s.priv) (h4 : u.mepc = s.mepc) (h5 : u.mcause = s.mcause) (h6 : u.mtval = s.mtval)
    (h7 : u.mtvec = s.mtvec) (h8 : u.medeleg = s.medeleg) (h9 : u.sepc = s.sepc) (h10 : u.scause = s.scause)
    (h11 : u.stval = s.stval) (h12 : u.stvec = s.stvec) (h13 : u.misa = s.misa) (hvl : u.vl = s.vl) (hvt : u.vtype = s.vtype) :
    TookTrap s (u.elemTrap i c tval) c tval := by
  unfold State.elemTrap
  have hd : ∀ b, s.delegated c = b →
      ({ u with vstart := BitVec.ofNat 64 i, mstatus := { u.mstatus with vs := .dirty } } : State).delegated c = b := by
    intro b hb; rw [← hb]; simp [State.delegated, h3, h8]
  constructor
  · simp [hpc]
  · intro h; rw [State.takeTrap_machine (hd _ h)]; simp_all
  · intro h; rw [State.takeTrap_supervisor (hd _ h)]; simp_all
  all_goals first | (simp; assumption) | skip
  · intro r; simp [State.readX, hx, hcfg]
  · exact ⟨by simp [hvl], by simp [hvt]⟩

/-! ### The checks -/

theorem checkAccess_eq_none {s : State} {k : AccessKind} {a : XWord} {n : Nat} :
    checkAccess s.cfg k a n = none ↔ s.accessOk k a n := by
  unfold checkAccess
  constructor
  · intro h
    by_cases h1 : a.toNat % n ≠ 0 ∧ s.cfg.misaligned = .trap
    · rw [if_pos h1] at h; cases h
    rw [if_neg h1] at h
    have hal : a.toNat % n = 0 ∨ s.cfg.misaligned = .perform := by
      rcases hm : s.cfg.misaligned with _ | _
      · left; by_contra h0; exact h1 ⟨h0, hm⟩
      · exact .inr rfl
    cases ha : memAdmits s.cfg a.toNat n k with
    | ok =>
      simp only [ha] at h
      refine ⟨hal, ha, ?_⟩
      by_contra h2
      simp [h2] at h
    | accessFault => simp [ha] at h
    | pageFault => simp [ha] at h
  · rintro ⟨h1, h2, h3⟩
    rw [if_neg, h2]
    · simp [h3]
    · rintro ⟨h4, h5⟩
      rcases h1 with h1 | h1
      · exact h4 h1
      · rw [h1] at h5; cases h5

/-- The trap value `faultAddress` gives, in the terms of R69 and R351. -/
theorem faultAddress_eq {s : State} {k : AccessKind} {a : XWord} {n : Nat} {tval : XWord} :
    faultAddress s.cfg k a n = tval ↔ s.refusedAt k a n tval := by
  have hx : ∀ j, (truncX s.cfg (a + BitVec.ofNat 64 j)).toNat = (a.toNat + j) % 2 ^ s.cfg.xbits := by
    intro j
    unfold truncX
    cases h : s.cfg.xlen <;> simp only [Params.xbits, h, XLen.bits, BitVec.toNat_setWidth, BitVec.toNat_add,
      BitVec.toNat_ofNat] <;> omega
  unfold faultAddress State.refusedAt
  by_cases h0 : a.toNat % n = 0
  · simp [h0, eq_comm]
  rw [if_neg h0]
  simp only [h0, false_and, false_or, ne_eq, not_false_eq_true, true_and, not_not]
  cases hf : (List.range n).find? (fun j => memAdmits s.cfg ((a.toNat + j) % 2 ^ s.cfg.xbits) 1 k != .ok) with
  | none =>
    simp only [List.find?_range_eq_none, Bool.not_eq_true', bne_eq_false_iff_eq] at hf
    constructor
    · exact fun h => .inr ⟨hf, h.symm⟩
    · rintro (⟨j, hj, h1, -⟩ | ⟨-, h⟩)
      · exact absurd (hf j hj) h1
      · exact h.symm
  | some j =>
    simp only [List.find?_range_eq_some, List.mem_range, bne_iff_ne, ne_eq, Bool.not_eq_true',
      bne_eq_false_iff_eq] at hf
    obtain ⟨h1, h2, h3⟩ := hf
    constructor
    · rintro rfl
      exact .inl ⟨j, h2, h1, h3, hx j⟩
    · rintro (⟨l, hl, h4, h5, h6⟩ | ⟨h4, -⟩)
      · obtain rfl : l = j := by
          rcases Nat.lt_trichotomy l j with h7 | h7 | h7
          · exact absurd (h3 l h7) h4
          · exact h7
          · exact absurd (h5 j h7) h1
        exact BitVec.eq_of_toNat_eq ((hx l).trans h6.symm)
      · exact absurd (h4 j h2) h1

/-- What the check of an access raises, in the terms of R65, R69, R351 and R360. -/
theorem checkAccess_eq_raises {s : State} {k : AccessKind} {a : XWord} {n : Nat} {c : Cause} {tval : XWord} :
    checkAccess s.cfg k a n = some (.raises c tval) ↔ s.accessRaises k a n c tval := by
  unfold checkAccess State.accessRaises
  rw [← faultAddress_eq]
  by_cases h : a.toNat % n ≠ 0 ∧ s.cfg.misaligned = .trap
  · rw [if_pos h]
    cases k <;> simp [h.1, h.2, misalignedCause, eq_comm, and_comm]
  · rw [if_neg h]
    have hp : s.cfg.misaligned = .perform ∨ a.toNat % n = 0 := by
      cases hm : s.cfg.misaligned with
      | perform => exact .inl rfl
      | trap => right; by_contra h0; exact h ⟨h0, hm⟩
    have hn : ∀ p : Prop, ¬ (s.cfg.misaligned = .trap ∧ a.toNat % n ≠ 0 ∧ p) := fun _ h1 => h ⟨h1.2.1, h1.1⟩
    simp only [hn, hp, true_and, false_or]
    cases hm : memAdmits s.cfg a.toNat n k with
    | ok =>
      by_cases hi : (attrAt s.cfg a.toNat n).idempotent <;> simp [hi]
    | accessFault => cases k <;> simp [accessFaultCause, eq_comm, and_comm]
    | pageFault => cases k <;> simp [pageFaultCause, eq_comm, and_comm]

theorem firstStop_eq_none {chk : Nat → Option Stop} {i n : Nat} :
    firstStop chk i n = none ↔ ∀ j, i ≤ j → j < i + n → chk j = none := by
  induction n generalizing i with
  | zero => simp only [firstStop, true_iff]; intro j h1 h2; omega
  | succ n ih =>
    unfold firstStop
    cases hc : chk i with
    | some r =>
      simp only [reduceCtorEq, false_iff]
      intro h; have := h i le_rfl (by omega); rw [hc] at this; cases this
    | none =>
      simp only [ih]
      constructor
      · intro h j h1 h2
        rcases Nat.eq_or_lt_of_le h1 with rfl | h1
        · exact hc
        · exact h j h1 (by omega)
      · intro h j h1 h2; exact h j (by omega) (by omega)

theorem firstStop_eq_some {chk : Nat → Option Stop} {i n j : Nat} {r : Stop} :
    firstStop chk i n = some (j, r) ↔
      i ≤ j ∧ j < i + n ∧ chk j = some r ∧ ∀ l, i ≤ l → l < j → chk l = none := by
  induction n generalizing i with
  | zero => simp only [firstStop, reduceCtorEq, false_iff]; rintro ⟨h1, h2, -⟩; omega
  | succ n ih =>
    unfold firstStop
    cases hc : chk i with
    | some q =>
      simp only [Option.some.injEq, Prod.mk.injEq]
      constructor
      · rintro ⟨rfl, rfl⟩; exact ⟨le_rfl, by omega, hc, fun l h1 h2 => by omega⟩
      · rintro ⟨h1, h2, h3, h4⟩
        rcases Nat.eq_or_lt_of_le h1 with rfl | h1
        · rw [hc] at h3; exact ⟨rfl, by simpa using h3⟩
        · have := h4 i le_rfl h1; rw [hc] at this; cases this
    | none =>
      simp only [ih]
      constructor
      · rintro ⟨h1, h2, h3, h4⟩
        refine ⟨by omega, by omega, h3, fun l hl hlj => ?_⟩
        rcases Nat.eq_or_lt_of_le hl with rfl | hl
        · exact hc
        · exact h4 l hl hlj
      · rintro ⟨h1, h2, h3, h4⟩
        have hne : i ≠ j := by rintro rfl; rw [hc] at h3; cases h3
        exact ⟨by omega, by omega, h3, fun l hl hlj => h4 l (by omega) hlj⟩

/-- No active element stops. -/
theorem firstStop_elemCheck_none {s : State} {k : AccessKind} {W body : Nat} {on : Nat → Bool} {addr : Nat → XWord}
    (h : s.elementsOk k W body on addr) :
    firstStop (elemCheck s k W on addr) s.vstartN (body - s.vstartN) = none := by
  rw [firstStop_eq_none]
  intro j h1 h2
  unfold elemCheck
  split_ifs with h3
  · exact checkAccess_eq_none.mpr (h j h1 (by omega) h3)
  · rfl

/-- The lowest-indexed active element that raises is the one found. -/
theorem firstStop_elemCheck_some {s : State} {k : AccessKind} {W body : Nat} {on : Nat → Bool} {addr : Nat → XWord}
    {i : Nat} {c : Cause} {tval : XWord} (h : s.raisesAt k W body on addr i c tval) :
    firstStop (elemCheck s k W on addr) s.vstartN (body - s.vstartN) = some (i, .raises c tval) := by
  have hl := h.lower; have hu := h.upper
  rw [firstStop_eq_some]
  refine ⟨h.lower, by omega, by unfold elemCheck; rw [if_pos h.active, checkAccess_eq_raises.mpr h.raises], fun l h1 h2 => ?_⟩
  unfold elemCheck
  split_ifs with h3
  · exact checkAccess_eq_none.mpr (h.earlier l h1 h2 h3)
  · rfl

/-! ### Elements written -/

theorem kept_refl (agnostic : Bool) {W : Nat} (a : BitVec W) : Kept agnostic a a := .inl rfl

/-- What an agnostic element may hold (R45). -/
theorem kept_agnElem (s : State) (i : Nat) {W : Nat} (old : BitVec W) : Kept true old (agnElem s i old) := by
  unfold agnElem
  split
  · exact .inl rfl
  · split_ifs
    · exact .inr ⟨rfl, rfl⟩
    · exact .inl rfl

theorem kept_ite_agnElem (s : State) (i : Nat) (agnostic : Bool) {W : Nat} (old : BitVec W) :
    Kept agnostic old ((if agnostic then some (agnElem s i old) else none).getD old) := by
  cases agnostic
  · exact kept_refl _ _
  · exact kept_agnElem s i old

/-- No register outside a destination group changes. -/
theorem otherRegsSame_of {s t : State} {vd : RegNo} {W m n : Nat} {g : Nat → Option (BitVec W)}
    (hm : vd.toNat + m ≤ 32) (hn : n ≤ m * (s.cfg.vlen / W)) (ht : t.v = writeElems s.cfg vd.toNat W g n s.v) :
    OtherRegsSame s t vd m := by
  intro r hr
  rw [ht]
  refine vreg_writeElems _ _ _ _ _ fun i hi => ?_
  have hd : i / (s.cfg.vlen / W) < m :=
    Nat.div_lt_of_lt_mul (by rw [Nat.mul_comm]; exact lt_of_lt_of_le hi hn)
  have hr' := r.isLt
  generalize i / (s.cfg.vlen / W) = x at *
  omega

/-- The loop of R155 (and of R252, R289, R290 when no element stops), read back element by element. -/
theorem elemsWritten_of {s t : State} {vd : RegNo} {W body n : Nat} {vma vta : Bool} {on : Nat → Bool}
    {result : Nat → BitVec W} {g : Nat → Option (BitVec W)} (hW : FitsWidth s.cfg W)
    (hn : n ≤ 32 * (s.cfg.vlen / W)) (hb : body ≤ n) (hlt : s.vstartN < body) (hcfg : t.cfg = s.cfg)
    (ht : t.v = writeElems s.cfg vd.toNat W g n s.v)
    (hg : ∀ i, g i = if i < s.vstartN then none
      else if i < body then
        if on i then some (result i) else if vma then some (agnElem s i (s.elem vd W i)) else none
      else if vta then some (agnElem s i (s.elem vd W i)) else none) :
    ElemsWritten s t vd W body n vma vta on result := by
  have key : ∀ i < n, t.elem vd W i = (g i).getD (s.elem vd W i) := by
    intro i hi
    unfold State.elem
    rw [hcfg, ht, elemOf_writeElems hW _ _ _ _ _ hn (by omega), if_pos hi]
  constructor
  · intro i hi h; rw [key i hi, hg, if_pos h]; rfl
  · intro i h1 h2 h3
    rw [key i (by omega), hg, if_neg (by omega), if_pos h2, if_pos h3]; rfl
  · intro i h1 h2 h3
    rw [key i (by omega), hg, if_neg (by omega), if_pos h2, if_neg (by simp [h3])]
    exact kept_ite_agnElem s i vma _
  · intro i hi h
    rw [key i hi, hg, if_neg (by omega), if_neg (by omega)]
    exact kept_ite_agnElem s i vta _
  · intro h; omega

/-- With no body nothing is written (R43). -/
theorem elemsWritten_empty {s t : State} {vd : RegNo} {W body n : Nat} {vma vta : Bool} {on : Nat → Bool}
    {result : Nat → BitVec W} (hlt : body ≤ s.vstartN) (hcfg : t.cfg = s.cfg) (ht : t.v = s.v) :
    ElemsWritten s t vd W body n vma vta on result := by
  have key : ∀ i, t.elem vd W i = s.elem vd W i := by intro i; unfold State.elem; rw [hcfg, ht]
  exact ⟨fun i _ _ => key i, fun i _ _ _ => by omega, fun i _ _ _ => by omega,
    fun i _ _ => key i ▸ kept_refl _ _, fun _ r => by rw [ht]⟩

/-! ### Arithmetic -/

theorem arithLegal_of {s : State} (h : s.arithReady) : s.arithLegal false = true := by
  obtain ⟨h1, h2, h3, h4⟩ := h
  simp [State.arithLegal, h1, h2, h3]
  rcases h4 with h4 | h4 <;> simp [h4]

/-- The arithmetic loop with a vector destination (R155), once. -/
theorem arithVec_done {s : State} {insn : InsnWord} {vd : RegNo} {W : Nat} {on : Nat → Bool} {result : Nat → BitVec W}
    (hc : s.cfg.wf) (hl : s.vlN ≤ s.vlmax) (hr : s.arithReady) (hW : ∃ k, W = 2 ^ k)
    (hg : groupOk s.cfg vd (s.emul8 W) W = true) :
    ∃ t, arithVec s insn false vd W on result = .next t ∧ ArithDone s t vd W on result := by
  obtain ⟨k, rfl⟩ := hW
  obtain ⟨h1, -, -, h4, -⟩ := groupOk_iff.mp hg
  have hmax : 1 ≤ s.vlmax := by have := hr.vstart; omega
  have hwv := h4.trans (elen_le_vlen hc)
  have hfit := fitsWidth_pow hc hwv
  have hslots := State.slots_le hmax hwv h1
  obtain ⟨hm, hm8⟩ := State.group_fits hmax hg
  have hn : s.slots (2 ^ k) ≤ 32 * (s.cfg.vlen / 2 ^ k) := hslots.trans (Nat.mul_le_mul_right _ (by omega))
  have hb : s.vlN ≤ s.slots (2 ^ k) := hl.trans (le_max_left _ _)
  unfold arithVec
  rw [if_pos (arithLegal_of hr)]
  by_cases hlt : s.vstartN < s.vlN
  · rw [if_pos hlt]
    refine ⟨_, rfl, completed_complete s _ rfl rfl rfl rfl rfl rfl rfl rfl rfl rfl rfl rfl rfl rfl rfl rfl,
      fun r => rfl, ⟨rfl, rfl⟩, ⟨fun a => rfl, rfl⟩, ?_, ?_⟩
    · exact elemsWritten_of hfit hn hb hlt rfl rfl (fun i => rfl)
    · exact otherRegsSame_of hm hslots rfl
  · rw [if_neg hlt]
    refine ⟨_, rfl, completed_complete s _ rfl rfl rfl rfl rfl rfl rfl rfl rfl rfl rfl rfl rfl rfl rfl rfl,
      fun r => rfl, ⟨rfl, rfl⟩, ⟨fun a => rfl, rfl⟩, elemsWritten_empty (by omega) rfl rfl, fun r _ => rfl⟩

/-- A mask bit is read as an element of width 1. -/
theorem mask_eq_of_elem {t : State} {vd : RegNo} {i : Nat} {b : Bool} (hi : i < t.cfg.vlen)
    (h : t.elem vd 1 i = BitVec.ofBool b) : t.mask vd i = b := by
  unfold State.elem at h
  rw [elemOf_one _ _ _ hi] at h
  unfold State.mask
  revert h
  cases (vreg t.v vd.toNat).getLsbD i <;> cases b <;> decide

/-- The arithmetic loop with a mask destination (R156), once. -/
theorem arithMask_done {s : State} {insn : InsnWord} {vd : RegNo} {bit : Nat → Bool} (hc : s.cfg.wf)
    (hl : s.vlN ≤ s.vlmax) (hr : s.arithReady) :
    ∃ t, arithMask s insn false vd bit = .next t ∧ MaskDone s t vd bit := by
  have hvl : s.vlN ≤ s.cfg.vlen := hl.trans (vlmaxOf_le _ _ _)
  have hvd := vd.isLt
  have hfit := fitsWidth_one hc
  have hper : s.cfg.vlen / 1 = s.cfg.vlen := Nat.div_one _
  unfold arithMask
  rw [if_pos (arithLegal_of hr)]
  by_cases hlt : s.vstartN < s.vlN
  · rw [if_pos hlt]
    have key : ∀ i < s.cfg.vlen, elemOf s.cfg (writeElems s.cfg vd.toNat 1 (maskSlot s vd bit) s.cfg.vlen s.v) vd.toNat 1 i =
        (maskSlot s vd bit i).getD (s.elem vd 1 i) := by
      intro i hi
      rw [elemOf_writeElems hfit _ _ _ _ _ (by omega) (by omega), if_pos hi]; rfl
    refine ⟨_, rfl, completed_complete s _ rfl rfl rfl rfl rfl rfl rfl rfl rfl rfl rfl rfl rfl rfl rfl rfl,
      fun r => rfl, ⟨rfl, rfl⟩, ⟨fun a => rfl, rfl⟩, ?_, ?_, fun h => by omega, ?_⟩
    · intro i hi
      refine mask_eq_of_elem (show i < s.cfg.vlen by omega) ((key i (by omega)).trans ?_)
      rw [maskSlot, if_pos hi]
      exact elemOf_one _ _ _ (by omega)
    · intro i h1 h2
      refine mask_eq_of_elem (show i < s.cfg.vlen by omega) ((key i (by omega)).trans ?_)
      rw [maskSlot, if_neg (by omega), if_pos h2]; rfl
    · exact otherRegsSame_of (by omega) (by omega) rfl
  · rw [if_neg hlt]
    exact ⟨_, rfl, completed_complete s _ rfl rfl rfl rfl rfl rfl rfl rfl rfl rfl rfl rfl rfl rfl rfl rfl,
      fun r => rfl, ⟨rfl, rfl⟩, ⟨fun a => rfl, rfl⟩, fun i _ => rfl, fun i h1 h2 => by omega, fun _ r => rfl,
      fun r _ => rfl⟩

/-! ### Loads -/

theorem memLegal_of {s : State} (h : s.memReady) : s.memLegal false = true := by
  obtain ⟨h1, h2, h3⟩ := h
  simp [State.memLegal, h1, h2, h3]

/-- The load loop when no active element stops (R252, R289, R290), once. -/
theorem loadLoop_done {s : State} {vd : RegNo} {W body n m : Nat} {vma vta : Bool} {on : Nat → Bool}
    {addr : Nat → XWord} (hW : FitsWidth s.cfg W) (hb : body ≤ n) (hn : n ≤ m * (s.cfg.vlen / W))
    (hm : vd.toNat + m ≤ 32) (hok : s.elementsOk .load W body on addr) :
    ∃ t, loadLoop s vd W body n on addr vma vta = .next t ∧ LoadDone s t vd W body n m vma vta on addr := by
  have hn' : n ≤ 32 * (s.cfg.vlen / W) := hn.trans (Nat.mul_le_mul_right _ (by omega))
  unfold loadLoop
  by_cases hlt : s.vstartN < body
  · rw [if_pos hlt, firstStop_elemCheck_none hok]
    refine ⟨_, rfl, completed_complete s _ rfl rfl rfl rfl rfl rfl rfl rfl rfl rfl rfl rfl rfl rfl rfl rfl,
      fun r => rfl, ⟨rfl, rfl⟩, ⟨fun a => rfl, rfl⟩, ?_, ?_⟩
    · refine elemsWritten_of hW hn' hb hlt rfl rfl (fun i => ?_)
      unfold loadSlot
      split_ifs <;> rfl
    · exact otherRegsSame_of hm hn rfl
  · rw [if_neg hlt]
    exact ⟨_, rfl, completed_complete s _ rfl rfl rfl rfl rfl rfl rfl rfl rfl rfl rfl rfl rfl rfl rfl rfl,
      fun r => rfl, ⟨rfl, rfl⟩, ⟨fun a => rfl, rfl⟩, elemsWritten_empty (by omega) rfl rfl, fun r _ => rfl⟩

/-- The load loop when an active element raises (R253, R254), once. -/
theorem loadLoop_trapped {s : State} {vd : RegNo} {W body n m : Nat} {vma vta : Bool} {on : Nat → Bool}
    {addr : Nat → XWord} {i : Nat} {c : Cause} {tval : XWord} (hW : FitsWidth s.cfg W) (hb : body ≤ n)
    (hn : n ≤ m * (s.cfg.vlen / W)) (hm : vd.toNat + m ≤ 32) (hat : s.raisesAt .load W body on addr i c tval) :
    ∃ t, loadLoop s vd W body n on addr vma vta = .next t ∧
      LoadTrapped s t vd W body n m vma vta on addr i c tval := by
  have hn' : n ≤ 32 * (s.cfg.vlen / W) := hn.trans (Nat.mul_le_mul_right _ (by omega))
  have hlo := hat.lower; have hup := hat.upper
  unfold loadLoop
  rw [if_pos (by omega), firstStop_elemCheck_some hat]
  have key : ∀ j < n, ((s.loaded vd W on addr i body vma vma vta n).elemTrap i c tval).elem vd W j =
      (loadSlot s vd W on addr i body vma vma vta j).getD (s.elem vd W j) := by
    intro j hj
    unfold State.elem
    rw [State.elemTrap_cfg, State.elemTrap_v, State.loaded_cfg, State.loaded_v,
      elemOf_writeElems hW _ _ _ _ _ hn' (by omega), if_pos hj]
  refine ⟨_, rfl, tookTrap_elemTrap i c tval rfl rfl rfl rfl rfl rfl rfl rfl rfl rfl rfl rfl rfl rfl rfl rfl rfl rfl rfl,
    by simp, by simp, ⟨fun a => by simp, by simp⟩, ?_, ?_, ?_, ?_, ?_⟩
  · intro j hj h; rw [key j hj, loadSlot, if_pos h]; rfl
  · intro j h1 h2 h3
    rw [key j (by omega), loadSlot, if_neg (by omega), if_pos h2, if_pos h3]; rfl
  · intro j h1 h2 h3
    rw [key j (by omega), loadSlot, if_neg (by omega)]
    split_ifs <;> first | exact kept_agnElem s j _ | exact kept_refl _ _ | simp_all
    all_goals exact kept_agnElem s j _
  · intro j hj h
    rw [key j hj, loadSlot, if_neg (by omega), if_neg (by omega), if_neg (by omega)]
    exact kept_ite_agnElem s j vta _
  · exact otherRegsSame_of hm hn ((State.elemTrap_v _ _ _ _).trans (State.loaded_v ..))

/-! ### Stores -/

/-- What the writes of a store leave in memory (R62, R72, R76). -/
theorem memoryStored_of {s t : State} {vs3 : RegNo} {W body : Nat} {on : Nat → Bool} {addr : Nat → XWord}
    {done : Nat → Bool} {ordered : Bool}
    (hm : t.mem = Mem.writes s.mem (landed s ordered (storeWrites s vs3 W body on addr done)))
    (hu : t.unsynced = (landed s ordered (storeWrites s vs3 W body on addr done)).foldl
      (fun l p => insertAddr p.1 l) s.unsynced) : MemoryStored s t vs3 W body on addr done := by
  have hst : ∀ a, StoredTo s W body on addr done a ↔ ∃ p ∈ storeWrites s vs3 W body on addr done, p.1 = a := by
    intro a
    constructor
    · rintro ⟨i, h1, h2, h3, h4, k, hk, rfl⟩
      exact ⟨_, mem_storeWrites.mpr ⟨i, h1, h2, h3, h4, k, hk, rfl⟩, rfl⟩
    · rintro ⟨p, hp, rfl⟩
      obtain ⟨i, h1, h2, h3, h4, k, hk, rfl⟩ := mem_storeWrites.mp hp
      exact ⟨i, h1, h2, h3, h4, k, hk, rfl⟩
  constructor
  · intro a ha
    rw [hm]
    refine Mem.read_writes_of_not_mem fun p hp e => ha ?_
    exact (hst a).mpr (exists_fst_landed.mp ⟨p, hp, e⟩)
  · intro a ha
    have h := mem_of_mem_landed (Mem.read_writes_of_mem (m := s.mem)
      (exists_fst_landed (s := s) (ordered := ordered).mpr ((hst a).mp ha)))
    rw [← hm] at h
    obtain ⟨i, h1, h2, h3, h4, k, hk, e⟩ := mem_storeWrites.mp h
    injection e with e1 e2
    exact ⟨i, h1, h2, h3, h4, k, hk, e1, e2⟩
  · intro a
    rw [hu, mem_foldl_insertAddr, exists_fst_landed, hst a]

/-- The store loop when no active element stops (R312), once. -/
theorem storeLoop_done {s : State} {vs3 : RegNo} {W body : Nat} {on : Nat → Bool} {addr : Nat → XWord}
    {ordered : Bool} (hok : s.elementsOk .store W body on addr) :
    ∃ t, storeLoop s vs3 W body on addr ordered = .next t ∧ StoreDone s t vs3 W body on addr := by
  unfold storeLoop
  by_cases hlt : s.vstartN < body
  · rw [if_pos hlt, firstStop_elemCheck_none hok]
    exact ⟨_, rfl, completed_complete s _ rfl rfl rfl rfl rfl rfl rfl rfl rfl rfl rfl rfl rfl rfl rfl rfl,
      fun r => rfl, ⟨rfl, rfl⟩, fun r => rfl, memoryStored_of rfl rfl⟩
  · rw [if_neg hlt]
    refine ⟨_, rfl, completed_complete s _ rfl rfl rfl rfl rfl rfl rfl rfl rfl rfl rfl rfl rfl rfl rfl rfl,
      fun r => rfl, ⟨rfl, rfl⟩, fun r => rfl, ⟨fun a _ => rfl, ?_, ?_⟩⟩
    · rintro a ⟨i, h1, h2, -⟩; omega
    · intro a
      constructor
      · exact fun h => .inl h
      · rintro (h | ⟨i, h1, h2, -⟩)
        · exact h
        · omega

/-- The store loop when an active element raises (R313), once. -/
theorem storeLoop_trapped {s : State} {vs3 : RegNo} {W body : Nat} {on : Nat → Bool} {addr : Nat → XWord}
    {ordered : Bool} {i : Nat} {c : Cause} {tval : XWord} (hat : s.raisesAt .store W body on addr i c tval) :
    ∃ t, storeLoop s vs3 W body on addr ordered = .next t ∧
      StoreTrapped s t vs3 W body on addr i c tval := by
  have hlo := hat.lower; have hup := hat.upper
  unfold storeLoop
  rw [if_pos (by omega), firstStop_elemCheck_some hat]
  refine ⟨_, rfl, tookTrap_elemTrap i c tval rfl rfl rfl rfl rfl rfl rfl rfl rfl rfl rfl rfl rfl rfl rfl rfl rfl rfl rfl,
    by simp, by simp, fun r => by simp, storeDone s W on addr i, ?_, ?_, ?_, ?_⟩
  · intro j _ h; simp [storeDone, h]
  · simp [storeDone]
  · intro j h1 h2 h3
    have h4 : ¬ j < i := by omega
    simp only [storeDone, h4, decide_false, Bool.false_or, Bool.and_eq_true, Option.isNone_iff_eq_none] at h3
    have h5 := h3.2
    unfold elemCheck at h5
    rw [if_pos h2] at h5
    exact checkAccess_eq_none.mp h5
  · exact memoryStored_of (ordered := ordered) (by simp only [State.elemTrap_mem, State.storeBytes_mem])
      (by simp only [State.elemTrap_unsynced, State.storeBytes_unsynced])

end Sys2Proof.Machine
end

