-- ==== Sys2Proof/Laws/Runs.lean ====
section
/-! SUPPORT. For each shared operation, once, every form its next state can take: the inversion lemmas that frames and
invariants are proved from. -/

namespace Sys2Proof.Machine

open Sys2Proof.Config

/-! ### Values of XLEN bits -/

theorem truncX_lt (c : Params) (a : XWord) : (truncX c a).toNat < 2 ^ c.xbits := by
  unfold truncX Params.xbits
  cases c.xlen with
  | x32 =>
    simp only [XLen.bits, BitVec.toNat_setWidth]
    exact lt_of_le_of_lt (Nat.mod_le _ _) (Nat.mod_lt _ (by decide))
  | x64 => exact a.isLt

theorem State.readX_lt (s : State) (r : RegNo) : (s.readX r).toNat < 2 ^ s.cfg.xbits := by
  unfold State.readX
  split
  · exact Nat.two_pow_pos _
  · exact truncX_lt _ _

theorem insn_lt (c : Params) (w : InsnWord) : (w.setWidth 64).toNat < 2 ^ c.xbits := by
  have h : (w.setWidth 64).toNat < 2 ^ 32 := by
    rw [BitVec.toNat_setWidth]; exact lt_of_le_of_lt (Nat.mod_le _ _) w.isLt
  exact h.trans_le (Nat.pow_le_pow_right (by decide) (by unfold Params.xbits; cases c.xlen <;> decide))

/-! ### Accesses that raise -/

theorem faultAddress_lt {c : Params} {k : AccessKind} {a : XWord} {n : Nat} (h : a.toNat < 2 ^ c.xbits) :
    (faultAddress c k a n).toNat < 2 ^ c.xbits := by
  unfold faultAddress
  split
  · exact h
  · split
    · exact truncX_lt _ _
    · exact h

/-- The causes and the trap value of an access that raises (R65, R69). -/
theorem checkAccess_raises {c : Params} {k : AccessKind} {a : XWord} {n : Nat} {e : Cause} {tval : XWord}
    (h : checkAccess c k a n = some (.raises e tval)) (ha : a.toNat < 2 ^ c.xbits) :
    memoryCause k e ∧ tval.toNat < 2 ^ c.xbits := by
  unfold checkAccess at h
  split at h
  · injection h with h; injection h with h1 h2
    exact ⟨.inl h1.symm, h2 ▸ ha⟩
  · split at h
    · injection h with h; injection h with h1 h2
      exact ⟨.inr (.inl h1.symm), h2 ▸ faultAddress_lt ha⟩
    · injection h with h; injection h with h1 h2
      exact ⟨.inr (.inr h1.symm), h2 ▸ faultAddress_lt ha⟩
    · split at h
      · cases h
      · injection h with h; cases h

theorem elemCheck_raises {s : State} {k : AccessKind} {W : Nat} {on : Nat → Bool} {addr : Nat → XWord} {i : Nat}
    {e : Cause} {tval : XWord} (h : elemCheck s k W on addr i = some (.raises e tval))
    (ha : ∀ i, (addr i).toNat < 2 ^ s.cfg.xbits) : memoryCause k e ∧ tval.toNat < 2 ^ s.cfg.xbits := by
  unfold elemCheck at h
  split at h
  · exact checkAccess_raises h (ha i)
  · cases h

theorem unitAddr_lt (s : State) (rs1 : RegNo) (bytes i : Nat) : (unitAddr s rs1 bytes i).toNat < 2 ^ s.cfg.xbits :=
  truncX_lt _ _

theorem stridedAddr_lt (s : State) (rs1 rs2 : RegNo) (i : Nat) : (stridedAddr s rs1 rs2 i).toNat < 2 ^ s.cfg.xbits :=
  truncX_lt _ _

theorem indexedAddr_lt (s : State) (rs1 vs2 : RegNo) (w i : Nat) :
    (indexedAddr s rs1 vs2 w i).toNat < 2 ^ s.cfg.xbits := truncX_lt _ _

/-! ### The forms of a next state -/

/-- The next states of an instruction that writes vector registers only: nothing written, elements written, a memory
exception at element `i` with elements written (of a load only), or an IllegalInstruction. -/
inductive RegsRan (loads : Bool) (s : State) (insn : InsnWord) : State → Prop
  | nothing : RegsRan loads s insn s.complete
  | written (b W n : Nat) (g : Nat → Option (BitVec W)) (hW : FitsWidth s.cfg W) :
      RegsRan loads s insn ({ s with v := writeElems s.cfg b W g n s.v } : State).complete
  | trapped (hload : loads = true) (b W n : Nat) (g : Nat → Option (BitVec W)) (hW : FitsWidth s.cfg W) (i : Nat)
      (hi : i < s.cfg.vlen) (c : Cause) (tval : XWord) (hc : memoryCause .load c) (ht : tval.toNat < 2 ^ s.cfg.xbits) :
      RegsRan loads s insn (({ s with v := writeElems s.cfg b W g n s.v } : State).elemTrap i c tval)
  | illegal : RegsRan loads s insn (s.illegal insn)

/-- The next states of a fault-only-first load: those, or elements written and `vl` reduced. -/
inductive FirstRan (s : State) (insn : InsnWord) : State → Prop
  | regs {t : State} (h : RegsRan true s insn t) : FirstRan s insn t
  | trimmed (b W n : Nat) (g : Nat → Option (BitVec W)) (hW : FitsWidth s.cfg W) (limit : Nat) (h : limit ≤ s.vlN) :
      FirstRan s insn
        ({ s with v := writeElems s.cfg b W g n s.v, vl := BitVec.ofNat 64 limit } : State).complete

/-- The next states of a store: nothing stored, bytes stored, a memory exception at element `i` with bytes stored, or
an IllegalInstruction. -/
inductive StoreRan (s : State) (insn : InsnWord) : State → Prop
  | nothing : StoreRan s insn s.complete
  | stored (ws : List (Nat × Byte)) (hw : ∀ p ∈ ws, p.1 < 2 ^ s.cfg.xbits) :
      StoreRan s insn (s.storeBytes ws).complete
  | trapped (ws : List (Nat × Byte)) (hw : ∀ p ∈ ws, p.1 < 2 ^ s.cfg.xbits) (i : Nat) (hi : i < s.cfg.vlen)
      (c : Cause) (tval : XWord) (hc : memoryCause .store c) (ht : tval.toNat < 2 ^ s.cfg.xbits) :
      StoreRan s insn ((s.storeBytes ws).elemTrap i c tval)
  | illegal : StoreRan s insn (s.illegal insn)

/-- The next states of a configuration instruction: `vl`, `vtype` and `x[rd]` written, or an IllegalInstruction. -/
inductive SetRan (s : State) (insn : InsnWord) : State → Prop
  | set (rd : RegNo) (sel : AvlSel) (cand : XWord) :
      SetRan s insn
        ((({ s with vl := (vsetResult s rd sel cand).1, vtype := (vsetResult s rd sel cand).2 } : State).writeX rd
          (vsetResult s rd sel cand).1).complete)
  | illegal : SetRan s insn (s.illegal insn)

theorem arithVec_ran {s t : State} {insn : InsnWord} {reserved : Bool} {vd : RegNo} {W : Nat} {on : Nat → Bool}
    {result : Nat → BitVec W} (hW : reserved = false → FitsWidth s.cfg W)
    (h : arithVec s insn reserved vd W on result = .next t) : RegsRan false s insn t := by
  unfold arithVec at h
  by_cases h1 : s.arithLegal reserved = true
  · rw [if_pos h1] at h
    have hr : reserved = false := by
      cases reserved
      · rfl
      · simp [State.arithLegal] at h1
    by_cases h2 : s.vstartN < s.vlN
    · rw [if_pos h2] at h; cases h; exact .written _ _ _ _ (hW hr)
    · rw [if_neg h2] at h; cases h; exact .nothing
  · rw [if_neg h1] at h; cases h; exact .illegal

theorem arithMask_ran {s t : State} {insn : InsnWord} {reserved : Bool} {vd : RegNo} {bit : Nat → Bool}
    (hc : s.cfg.wf) (h : arithMask s insn reserved vd bit = .next t) : RegsRan false s insn t := by
  unfold arithMask at h
  by_cases h1 : s.arithLegal reserved = true
  · rw [if_pos h1] at h
    by_cases h2 : s.vstartN < s.vlN
    · rw [if_pos h2] at h; cases h; exact .written _ _ _ _ (fitsWidth_one hc)
    · rw [if_neg h2] at h; cases h; exact .nothing
  · rw [if_neg h1] at h; cases h; exact .illegal

theorem loadLoop_ran {s t : State} {insn : InsnWord} {vd : RegNo} {W body n : Nat} {on : Nat → Bool}
    {addr : Nat → XWord} {vma vta : Bool} (hW : FitsWidth s.cfg W) (hb : body ≤ s.cfg.vlen)
    (ha : ∀ i, (addr i).toNat < 2 ^ s.cfg.xbits) (h : loadLoop s vd W body n on addr vma vta = .next t) :
    RegsRan true s insn t := by
  unfold loadLoop at h
  by_cases h1 : s.vstartN < body
  · rw [if_pos h1] at h
    split at h
    · cases h; exact .written _ _ _ _ hW
    · rename_i hf
      cases h
      obtain ⟨h2, h3, h4, -⟩ := firstStop_eq_some.mp hf
      obtain ⟨h5, h6⟩ := elemCheck_raises h4 ha
      exact .trapped rfl _ _ _ _ hW _ (by omega) _ _ h5 h6
    · cases h
  · rw [if_neg h1] at h; cases h; exact .nothing

theorem vload_ran {s t : State} {insn : InsnWord} {reserved : Bool} {vd : RegNo} {W : Nat} {vm : Bool}
    {addr : Nat → XWord} (hW : reserved = false → FitsWidth s.cfg W) (hl : s.vlN ≤ s.cfg.vlen)
    (ha : ∀ i, (addr i).toNat < 2 ^ s.cfg.xbits) (h : vload s insn reserved vd W vm addr = .next t) :
    RegsRan true s insn t := by
  unfold vload at h
  by_cases h1 : s.memLegal reserved = true
  · rw [if_pos h1] at h
    have hr : reserved = false := by
      cases reserved
      · rfl
      · simp [State.memLegal] at h1
    exact loadLoop_ran (hW hr) hl ha h
  · rw [if_neg h1] at h; cases h; exact .illegal

theorem vloadMask_ran {s t : State} {insn : InsnWord} {vd rs1 : RegNo} (hc : s.cfg.wf) (hl : s.vlN ≤ s.cfg.vlen)
    (h : vloadMask s insn vd rs1 = .next t) : RegsRan true s insn t := by
  have h8 : 2 ^ 3 ≤ s.cfg.vlen := Nat.pow_le_pow_right (by decide) (hc.1.trans hc.2.1)
  unfold vloadMask at h
  split at h
  · exact loadLoop_ran (fitsWidth_pow (k := 3) hc h8) (by unfold State.maskEvl; omega) (unitAddr_lt s rs1 1) h
  · cases h; exact .illegal

theorem vloadWhole_ran {s t : State} {insn : InsnWord} {vd rs1 : RegNo} {n w : Nat} (hc : s.cfg.wf)
    (hw : isEncodedWidth w) (hn : n ≤ 8) (h : vloadWhole s insn vd rs1 n w = .next t) : RegsRan true s insn t := by
  unfold vloadWhole at h
  split at h
  · rename_i h1
    simp only [Bool.and_eq_true, decide_eq_true_eq] at h1
    refine loadLoop_ran (hw.fits hc (h1.2.2.trans (elen_le_vlen hc))) ?_ (unitAddr_lt s rs1 _) h
    refine Nat.div_le_of_le_mul (Nat.mul_le_mul_right _ (hn.trans ?_))
    rcases hw with rfl | rfl | rfl | rfl <;> decide
  · cases h; exact .illegal

theorem ffStart_le {s : State} (h : s.vstartN < s.vlN) : s.vstartN ≤ ffStart s ∧ ffStart s ≤ s.vlN := by
  unfold ffStart
  split
  · omega
  · have hlt := Nat.mod_lt (ffLimit s.draws) (Nat.succ_pos (s.vlN - (if s.vstartN = 0 then 1 else s.vstartN)))
    simp only [Nat.succ_eq_add_one] at hlt
    dsimp only
    split_ifs at hlt ⊢ <;> omega

theorem vleff_ran {s t : State} {insn : InsnWord} {reserved : Bool} {vd : RegNo} {W : Nat} {vm : Bool}
    {addr : Nat → XWord} (hW : reserved = false → FitsWidth s.cfg W)
    (ha : ∀ i, (addr i).toNat < 2 ^ s.cfg.xbits) (h : vleff s insn reserved vd W vm addr = .next t) :
    FirstRan s insn t := by
  unfold vleff at h
  by_cases h1 : s.memLegal reserved = true
  · rw [if_pos h1] at h
    have hr : reserved = false := by
      cases reserved
      · rfl
      · simp [State.memLegal] at h1
    unfold ffLoop at h
    by_cases h2 : s.vstartN < s.vlN
    · rw [if_pos h2] at h
      have hL := ffStart_le h2
      split at h
      · cases h; exact .trimmed _ _ _ _ (hW hr) _ hL.2
      · rename_i hf
        cases h
        obtain ⟨-, -, h4, -⟩ := firstStop_eq_some.mp hf
        obtain ⟨h5, h6⟩ := elemCheck_raises h4 ha
        exact .regs (.trapped rfl _ _ _ _ (hW hr) _ (Nat.two_pow_pos _) _ _ h5 h6)
      · rename_i hf
        cases h
        obtain ⟨h3, h4, -, -⟩ := firstStop_eq_some.mp hf
        exact .trimmed _ _ _ _ (hW hr) _ (by omega)
      · cases h
    · rw [if_neg h2] at h; cases h; exact .regs .nothing
  · rw [if_neg h1] at h; cases h; exact .regs .illegal

theorem storeWrites_lt {s : State} {vs3 : RegNo} {W body : Nat} {on : Nat → Bool} {addr : Nat → XWord}
    {done : Nat → Bool} {ordered : Bool} {p : Nat × Byte}
    (h : p ∈ landed s ordered (storeWrites s vs3 W body on addr done)) : p.1 < 2 ^ s.cfg.xbits := by
  obtain ⟨i, -, -, -, -, k, -, rfl⟩ := mem_storeWrites.mp (mem_of_mem_landed h)
  exact Nat.mod_lt _ (Nat.two_pow_pos _)

theorem storeLoop_ran {s t : State} {insn : InsnWord} {vs3 : RegNo} {W body : Nat} {on : Nat → Bool}
    {addr : Nat → XWord} {ordered : Bool} (hb : body ≤ s.cfg.vlen) (ha : ∀ i, (addr i).toNat < 2 ^ s.cfg.xbits)
    (h : storeLoop s vs3 W body on addr ordered = .next t) : StoreRan s insn t := by
  unfold storeLoop at h
  by_cases h1 : s.vstartN < body
  · rw [if_pos h1] at h
    split at h
    · cases h; exact .stored _ (fun p hp => storeWrites_lt hp)
    · rename_i hf
      cases h
      obtain ⟨h2, h3, h4, -⟩ := firstStop_eq_some.mp hf
      obtain ⟨h5, h6⟩ := elemCheck_raises h4 ha
      exact .trapped _ (fun p hp => storeWrites_lt hp) _ (by omega) _ _ h5 h6
    · cases h
  · rw [if_neg h1] at h; cases h; exact .nothing

theorem vstore_ran {s t : State} {insn : InsnWord} {reserved : Bool} {vs3 : RegNo} {W : Nat} {vm ordered : Bool}
    {addr : Nat → XWord} (hl : s.vlN ≤ s.cfg.vlen) (ha : ∀ i, (addr i).toNat < 2 ^ s.cfg.xbits)
    (h : vstore s insn reserved vs3 W vm addr ordered = .next t) : StoreRan s insn t := by
  unfold vstore at h
  split at h
  · exact storeLoop_ran hl ha h
  · cases h; exact .illegal

theorem vstoreMask_ran {s t : State} {insn : InsnWord} {vs3 rs1 : RegNo} (hl : s.vlN ≤ s.cfg.vlen)
    (h : vstoreMask s insn vs3 rs1 = .next t) : StoreRan s insn t := by
  unfold vstoreMask at h
  split at h
  · exact storeLoop_ran (by unfold State.maskEvl; omega) (unitAddr_lt s rs1 1) h
  · cases h; exact .illegal

theorem vstoreWhole_ran {s t : State} {insn : InsnWord} {vs3 rs1 : RegNo} {n : Nat} (hn : n ≤ 8)
    (h : vstoreWhole s insn vs3 rs1 n = .next t) : StoreRan s insn t := by
  unfold vstoreWhole at h
  split at h
  · exact storeLoop_ran (Nat.div_le_of_le_mul (Nat.mul_le_mul_right _ hn)) (unitAddr_lt s rs1 1) h
  · cases h; exact .illegal

theorem vset_ran {s t : State} {insn : InsnWord} {rd : RegNo} {sel : AvlSel} {cand : XWord}
    (h : vset s insn rd sel cand = .next t) : SetRan s insn t := by
  unfold vset at h
  split at h
  · cases h; exact .set rd sel cand
  · cases h; exact .illegal

/-! ### Configuration -/

/-- The `vl` an implementation chooses never exceeds VLMAX (R134 (5)). -/
theorem chooseVl_le (c : Params) (avl vlmax : Nat) : chooseVl c avl vlmax ≤ vlmax := by
  unfold chooseVl
  split_ifs with h1 h2
  · exact h1
  · split
    · exact Nat.min_le_right _ _
    · have := Nat.mod_lt (vlChoice avl vlmax) (Nat.succ_pos (vlmax - (avl + 1) / 2))
      simp only [Nat.succ_eq_add_one] at this
      omega
  · exact le_rfl

/-- A supported candidate is a supported setting with nothing above bit 7 (R133). -/
theorem vtypeOk_iff {c : Params} {cand : XWord} :
    vtypeOk c cand = true ↔ cand.toNat < 256 ∧ supportsVtype c (fieldVsew cand) (fieldVlmul cand) = true := by
  simp [vtypeOk]

/-- What a configuration instruction sets `vl` and `vtype` to (R133, R135, R136). -/
theorem vsetResult_cases (s : State) (rd : RegNo) (sel : AvlSel) (cand : XWord) :
    vsetResult s rd sel cand = (0, BitVec.twoPow 64 (s.cfg.xbits - 1)) ∨
      (vtypeOk s.cfg cand = true ∧ ∃ avl,
        avlOf s rd sel (vlmaxOf s.cfg (fieldVsew cand) (fieldVlmul cand)) = some avl ∧
          vsetResult s rd sel cand =
            (BitVec.ofNat 64 (chooseVl s.cfg avl (vlmaxOf s.cfg (fieldVsew cand) (fieldVlmul cand))), cand)) := by
  unfold vsetResult
  dsimp only
  split_ifs with h
  · split
    · rename_i avl ha
      exact .inr ⟨h, avl, ha, rfl⟩
    · exact .inl rfl
  · exact .inl rfl

end Sys2Proof.Machine
end

