-- ==== Sys2Proof/Laws/Exec.lean ====
section
/-! SUPPORT. Every form the next state of an instruction can take, by its kind. -/

namespace Sys2Proof.Machine

open Sys2Proof.Config

/-- The width of an operand group in order is one the register layout fits. -/
theorem fits_of_groupOk {c : Params} {b : RegNo} {emul8 W : Nat} (hc : c.wf) (hW : ∃ k, W = 2 ^ k)
    (h : groupOk c b emul8 W = true) : FitsWidth c W := by
  obtain ⟨k, rfl⟩ := hW
  exact fitsWidth_pow hc ((groupOk_iff.mp h).2.2.2.1.trans (elen_le_vlen hc))

section

variable {s : State} {vd vs2 vs1 : RegNo} {vm : Bool} {w k : Nat} (hc : s.cfg.wf)
include hc

theorem fits_of_wideDestOk (h : wideDestOk s vd vm = true) : FitsWidth s.cfg (2 * s.sew) := by
  simp only [wideDestOk, Bool.and_eq_true] at h
  exact fits_of_groupOk hc State.two_sew_pow h.1

theorem fits_of_reservedVv (h : reservedVv s vd vs2 vs1 vm = false) : FitsWidth s.cfg (2 * s.sew) := by
  simp only [reservedVv, Bool.not_eq_false', Bool.and_eq_true] at h
  exact fits_of_wideDestOk hc h.1.1

theorem fits_of_reservedVx (h : reservedVx s vd vs2 vm = false) : FitsWidth s.cfg (2 * s.sew) := by
  simp only [reservedVx, Bool.not_eq_false', Bool.and_eq_true] at h
  exact fits_of_wideDestOk hc h.1

theorem fits_of_reservedWv (h : reservedWv s vd vs2 vs1 vm = false) : FitsWidth s.cfg (2 * s.sew) := by
  simp only [reservedWv, Bool.not_eq_false', Bool.and_eq_true] at h
  exact fits_of_wideDestOk hc h.1.1

theorem fits_of_reservedWx (h : reservedWx s vd vs2 vm = false) : FitsWidth s.cfg (2 * s.sew) := by
  simp only [reservedWx, Bool.not_eq_false', Bool.and_eq_true] at h
  exact fits_of_wideDestOk hc h.1

theorem fits_of_extReserved (h : extReserved s k vd vs2 vm = false) : FitsWidth s.cfg s.sew := by
  simp only [extReserved, Bool.not_eq_false', Bool.and_eq_true] at h
  exact fits_of_groupOk hc State.sew_pow h.1.1.1

theorem fits_of_adcReserved (h : adcReserved s vd vs2 = false) : FitsWidth s.cfg s.sew := by
  simp only [adcReserved, Bool.not_eq_false', Bool.and_eq_true] at h
  exact fits_of_groupOk hc State.sew_pow h.2

theorem fits_of_adcReservedVv (h : adcReservedVv s vd vs2 vs1 = false) : FitsWidth s.cfg s.sew := by
  simp only [adcReservedVv, Bool.or_eq_false_iff] at h
  exact fits_of_adcReserved hc h.1

theorem fits_of_loadReserved (hw : isEncodedWidth w) (h : loadReserved s w vd vm = false) : FitsWidth s.cfg w := by
  simp only [loadReserved, Bool.not_eq_false', Bool.and_eq_true] at h
  obtain ⟨k, -, -, hk⟩ := hw.eq_pow
  exact fits_of_groupOk hc ⟨k, hk⟩ h.1

theorem fits_of_indexedLoadReserved (h : indexedLoadReserved s w vd vs2 vm = false) : FitsWidth s.cfg s.sew := by
  simp only [indexedLoadReserved, Bool.not_eq_false', Bool.and_eq_true] at h
  exact fits_of_groupOk hc State.sew_pow h.1.1.1

end

/-- The form a next state takes, by the kind of the instruction. -/
def RanAs (k : Kind) (s : State) (insn : InsnWord) (t : State) : Prop :=
  match k with
  | .config => SetRan s insn t
  | .arith => RegsRan false s insn t
  | .load | .maskLoad | .wholeLoad => RegsRan true s insn t
  | .first => FirstRan s insn t
  | .store | .maskStore | .wholeStore => StoreRan s insn t

theorem isEncodedWidth_8 : isEncodedWidth 8 := .inl rfl
theorem isEncodedWidth_16 : isEncodedWidth 16 := .inr (.inl rfl)
theorem isEncodedWidth_32 : isEncodedWidth 32 := .inr (.inr (.inl rfl))
theorem isEncodedWidth_64 : isEncodedWidth 64 := .inr (.inr (.inr rfl))

/-- Every next state of an instruction has the form of its kind. -/
theorem exec_ran {i : Instr} {s t : State} (hc : s.cfg.wf) (hl : s.vlN ≤ s.cfg.vlen) (h : exec i s = .next t) :
    RanAs (kindOf i) s (encode i) t := by
  cases i with
  | vsetvli _ _ _ => exact vset_ran h
  | vsetivli _ _ _ => exact vset_ran h
  | vsetvl _ _ _ => exact vset_ran h
  | vwadduVv _ _ _ _ => exact arithVec_ran (fits_of_reservedVv hc) h
  | vwadduVx _ _ _ _ => exact arithVec_ran (fits_of_reservedVx hc) h
  | vwaddVv _ _ _ _ => exact arithVec_ran (fits_of_reservedVv hc) h
  | vwaddVx _ _ _ _ => exact arithVec_ran (fits_of_reservedVx hc) h
  | vwsubuVv _ _ _ _ => exact arithVec_ran (fits_of_reservedVv hc) h
  | vwsubuVx _ _ _ _ => exact arithVec_ran (fits_of_reservedVx hc) h
  | vwsubVv _ _ _ _ => exact arithVec_ran (fits_of_reservedVv hc) h
  | vwsubVx _ _ _ _ => exact arithVec_ran (fits_of_reservedVx hc) h
  | vwadduWv _ _ _ _ => exact arithVec_ran (fits_of_reservedWv hc) h
  | vwadduWx _ _ _ _ => exact arithVec_ran (fits_of_reservedWx hc) h
  | vwaddWv _ _ _ _ => exact arithVec_ran (fits_of_reservedWv hc) h
  | vwaddWx _ _ _ _ => exact arithVec_ran (fits_of_reservedWx hc) h
  | vwsubuWv _ _ _ _ => exact arithVec_ran (fits_of_reservedWv hc) h
  | vwsubuWx _ _ _ _ => exact arithVec_ran (fits_of_reservedWx hc) h
  | vwsubWv _ _ _ _ => exact arithVec_ran (fits_of_reservedWv hc) h
  | vwsubWx _ _ _ _ => exact arithVec_ran (fits_of_reservedWx hc) h
  | vzextVf8 _ _ _ => exact arithVec_ran (fits_of_extReserved hc) h
  | vsextVf8 _ _ _ => exact arithVec_ran (fits_of_extReserved hc) h
  | vzextVf4 _ _ _ => exact arithVec_ran (fits_of_extReserved hc) h
  | vsextVf4 _ _ _ => exact arithVec_ran (fits_of_extReserved hc) h
  | vzextVf2 _ _ _ => exact arithVec_ran (fits_of_extReserved hc) h
  | vsextVf2 _ _ _ => exact arithVec_ran (fits_of_extReserved hc) h
  | vadcVvm _ _ _ => exact arithVec_ran (fits_of_adcReservedVv hc) h
  | vadcVxm _ _ _ => exact arithVec_ran (fits_of_adcReserved hc) h
  | vadcVim _ _ _ => exact arithVec_ran (fits_of_adcReserved hc) h
  | vmadcVvm _ _ _ => exact arithMask_ran hc h
  | vmadcVxm _ _ _ => exact arithMask_ran hc h
  | vmadcVim _ _ _ => exact arithMask_ran hc h
  | vmadcVv _ _ _ => exact arithMask_ran hc h
  | vmadcVx _ _ _ => exact arithMask_ran hc h
  | vmadcVi _ _ _ => exact arithMask_ran hc h
  | vsbcVvm _ _ _ => exact arithVec_ran (fits_of_adcReservedVv hc) h
  | vsbcVxm _ _ _ => exact arithVec_ran (fits_of_adcReserved hc) h
  | vmsbcVvm _ _ _ => exact arithMask_ran hc h
  | vmsbcVxm _ _ _ => exact arithMask_ran hc h
  | vmsbcVv _ _ _ => exact arithMask_ran hc h
  | vmsbcVx _ _ _ => exact arithMask_ran hc h
  | vmandMm _ _ _ => exact arithMask_ran hc h
  | vle8V _ _ _ => exact vload_ran (fits_of_loadReserved hc isEncodedWidth_8) hl (unitAddr_lt _ _ _) h
  | vle16V _ _ _ => exact vload_ran (fits_of_loadReserved hc isEncodedWidth_16) hl (unitAddr_lt _ _ _) h
  | vle32V _ _ _ => exact vload_ran (fits_of_loadReserved hc isEncodedWidth_32) hl (unitAddr_lt _ _ _) h
  | vle64V _ _ _ => exact vload_ran (fits_of_loadReserved hc isEncodedWidth_64) hl (unitAddr_lt _ _ _) h
  | vlse8V _ _ _ _ => exact vload_ran (fits_of_loadReserved hc isEncodedWidth_8) hl (stridedAddr_lt _ _ _) h
  | vlse16V _ _ _ _ => exact vload_ran (fits_of_loadReserved hc isEncodedWidth_16) hl (stridedAddr_lt _ _ _) h
  | vlse32V _ _ _ _ => exact vload_ran (fits_of_loadReserved hc isEncodedWidth_32) hl (stridedAddr_lt _ _ _) h
  | vlse64V _ _ _ _ => exact vload_ran (fits_of_loadReserved hc isEncodedWidth_64) hl (stridedAddr_lt _ _ _) h
  | vluxei8V _ _ _ _ => exact vload_ran (fits_of_indexedLoadReserved hc) hl (indexedAddr_lt _ _ _ _) h
  | vluxei16V _ _ _ _ => exact vload_ran (fits_of_indexedLoadReserved hc) hl (indexedAddr_lt _ _ _ _) h
  | vluxei32V _ _ _ _ => exact vload_ran (fits_of_indexedLoadReserved hc) hl (indexedAddr_lt _ _ _ _) h
  | vluxei64V _ _ _ _ => exact vload_ran (fits_of_indexedLoadReserved hc) hl (indexedAddr_lt _ _ _ _) h
  | vloxei8V _ _ _ _ => exact vload_ran (fits_of_indexedLoadReserved hc) hl (indexedAddr_lt _ _ _ _) h
  | vloxei16V _ _ _ _ => exact vload_ran (fits_of_indexedLoadReserved hc) hl (indexedAddr_lt _ _ _ _) h
  | vloxei32V _ _ _ _ => exact vload_ran (fits_of_indexedLoadReserved hc) hl (indexedAddr_lt _ _ _ _) h
  | vloxei64V _ _ _ _ => exact vload_ran (fits_of_indexedLoadReserved hc) hl (indexedAddr_lt _ _ _ _) h
  | vle8ffV _ _ _ => exact vleff_ran (fits_of_loadReserved hc isEncodedWidth_8) (unitAddr_lt _ _ _) h
  | vle16ffV _ _ _ => exact vleff_ran (fits_of_loadReserved hc isEncodedWidth_16) (unitAddr_lt _ _ _) h
  | vle32ffV _ _ _ => exact vleff_ran (fits_of_loadReserved hc isEncodedWidth_32) (unitAddr_lt _ _ _) h
  | vle64ffV _ _ _ => exact vleff_ran (fits_of_loadReserved hc isEncodedWidth_64) (unitAddr_lt _ _ _) h
  | vlmV _ _ => exact vloadMask_ran hc hl h
  | vl1re8V _ _ => exact vloadWhole_ran hc isEncodedWidth_8 (by decide) h
  | vl1re16V _ _ => exact vloadWhole_ran hc isEncodedWidth_16 (by decide) h
  | vl1re32V _ _ => exact vloadWhole_ran hc isEncodedWidth_32 (by decide) h
  | vl1re64V _ _ => exact vloadWhole_ran hc isEncodedWidth_64 (by decide) h
  | vl2re8V _ _ => exact vloadWhole_ran hc isEncodedWidth_8 (by decide) h
  | vl2re16V _ _ => exact vloadWhole_ran hc isEncodedWidth_16 (by decide) h
  | vl2re32V _ _ => exact vloadWhole_ran hc isEncodedWidth_32 (by decide) h
  | vl2re64V _ _ => exact vloadWhole_ran hc isEncodedWidth_64 (by decide) h
  | vl4re8V _ _ => exact vloadWhole_ran hc isEncodedWidth_8 (by decide) h
  | vl4re16V _ _ => exact vloadWhole_ran hc isEncodedWidth_16 (by decide) h
  | vl4re32V _ _ => exact vloadWhole_ran hc isEncodedWidth_32 (by decide) h
  | vl4re64V _ _ => exact vloadWhole_ran hc isEncodedWidth_64 (by decide) h
  | vl8re8V _ _ => exact vloadWhole_ran hc isEncodedWidth_8 (by decide) h
  | vl8re16V _ _ => exact vloadWhole_ran hc isEncodedWidth_16 (by decide) h
  | vl8re32V _ _ => exact vloadWhole_ran hc isEncodedWidth_32 (by decide) h
  | vl8re64V _ _ => exact vloadWhole_ran hc isEncodedWidth_64 (by decide) h
  | vse8V _ _ _ => exact vstore_ran hl (unitAddr_lt _ _ _) h
  | vse16V _ _ _ => exact vstore_ran hl (unitAddr_lt _ _ _) h
  | vse32V _ _ _ => exact vstore_ran hl (unitAddr_lt _ _ _) h
  | vse64V _ _ _ => exact vstore_ran hl (unitAddr_lt _ _ _) h
  | vsse8V _ _ _ _ => exact vstore_ran hl (stridedAddr_lt _ _ _) h
  | vsse16V _ _ _ _ => exact vstore_ran hl (stridedAddr_lt _ _ _) h
  | vsse32V _ _ _ _ => exact vstore_ran hl (stridedAddr_lt _ _ _) h
  | vsse64V _ _ _ _ => exact vstore_ran hl (stridedAddr_lt _ _ _) h
  | vsuxei8V _ _ _ _ => exact vstore_ran hl (indexedAddr_lt _ _ _ _) h
  | vsuxei16V _ _ _ _ => exact vstore_ran hl (indexedAddr_lt _ _ _ _) h
  | vsuxei32V _ _ _ _ => exact vstore_ran hl (indexedAddr_lt _ _ _ _) h
  | vsuxei64V _ _ _ _ => exact vstore_ran hl (indexedAddr_lt _ _ _ _) h
  | vsoxei8V _ _ _ _ => exact vstore_ran hl (indexedAddr_lt _ _ _ _) h
  | vsoxei16V _ _ _ _ => exact vstore_ran hl (indexedAddr_lt _ _ _ _) h
  | vsoxei32V _ _ _ _ => exact vstore_ran hl (indexedAddr_lt _ _ _ _) h
  | vsoxei64V _ _ _ _ => exact vstore_ran hl (indexedAddr_lt _ _ _ _) h
  | vsmV _ _ => exact vstoreMask_ran hl h
  | vs1rV _ _ => exact vstoreWhole_ran (by decide) h
  | vs2rV _ _ => exact vstoreWhole_ran (by decide) h
  | vs4rV _ _ => exact vstoreWhole_ran (by decide) h
  | vs8rV _ _ => exact vstoreWhole_ran (by decide) h

end Sys2Proof.Machine
end

