-- ==== Sys2Proof/Laws/PerInstr.lean ====
section
/-! SUPPORT. Statements for all instructions, one lemma per constructor. -/

namespace Sys2Proof.Laws

/-- The word of an instruction has one of the three vector opcodes (R93): OP-V, LOAD-FP or STORE-FP. -/
def VectorOpcode.Statement (i : Instr) : Prop :=
  fOpcode (encode i) = 0b1010111#7 ∨ fOpcode (encode i) = 0b0000111#7 ∨ fOpcode (encode i) = 0b0100111#7

theorem VectorOpcode.vsetvli (rd rs1 : RegNo) (zimm : BitVec 11) :
    VectorOpcode.Statement (.vsetvli rd rs1 zimm) := .inl (fOpcode_encVsetvli ..)

theorem VectorOpcode.vsetivli (rd : RegNo) (uimm : BitVec 5) (zimm : BitVec 10) :
    VectorOpcode.Statement (.vsetivli rd uimm zimm) := .inl (fOpcode_encVsetivli ..)

theorem VectorOpcode.vsetvl (rd rs1 rs2 : RegNo) :
    VectorOpcode.Statement (.vsetvl rd rs1 rs2) := .inl (fOpcode_encVsetvl ..)

theorem VectorOpcode.vwadduVv (vd vs2 vs1 : RegNo) (vm : Bool) :
    VectorOpcode.Statement (.vwadduVv vd vs2 vs1 vm) := .inl (fOpcode_encOpV ..)

theorem VectorOpcode.vwadduVx (vd vs2 rs1 : RegNo) (vm : Bool) :
    VectorOpcode.Statement (.vwadduVx vd vs2 rs1 vm) := .inl (fOpcode_encOpV ..)

theorem VectorOpcode.vwaddVv (vd vs2 vs1 : RegNo) (vm : Bool) :
    VectorOpcode.Statement (.vwaddVv vd vs2 vs1 vm) := .inl (fOpcode_encOpV ..)

theorem VectorOpcode.vwaddVx (vd vs2 rs1 : RegNo) (vm : Bool) :
    VectorOpcode.Statement (.vwaddVx vd vs2 rs1 vm) := .inl (fOpcode_encOpV ..)

theorem VectorOpcode.vwsubuVv (vd vs2 vs1 : RegNo) (vm : Bool) :
    VectorOpcode.Statement (.vwsubuVv vd vs2 vs1 vm) := .inl (fOpcode_encOpV ..)

theorem VectorOpcode.vwsubuVx (vd vs2 rs1 : RegNo) (vm : Bool) :
    VectorOpcode.Statement (.vwsubuVx vd vs2 rs1 vm) := .inl (fOpcode_encOpV ..)

theorem VectorOpcode.vwsubVv (vd vs2 vs1 : RegNo) (vm : Bool) :
    VectorOpcode.Statement (.vwsubVv vd vs2 vs1 vm) := .inl (fOpcode_encOpV ..)

theorem VectorOpcode.vwsubVx (vd vs2 rs1 : RegNo) (vm : Bool) :
    VectorOpcode.Statement (.vwsubVx vd vs2 rs1 vm) := .inl (fOpcode_encOpV ..)

theorem VectorOpcode.vwadduWv (vd vs2 vs1 : RegNo) (vm : Bool) :
    VectorOpcode.Statement (.vwadduWv vd vs2 vs1 vm) := .inl (fOpcode_encOpV ..)

theorem VectorOpcode.vwadduWx (vd vs2 rs1 : RegNo) (vm : Bool) :
    VectorOpcode.Statement (.vwadduWx vd vs2 rs1 vm) := .inl (fOpcode_encOpV ..)

theorem VectorOpcode.vwaddWv (vd vs2 vs1 : RegNo) (vm : Bool) :
    VectorOpcode.Statement (.vwaddWv vd vs2 vs1 vm) := .inl (fOpcode_encOpV ..)

theorem VectorOpcode.vwaddWx (vd vs2 rs1 : RegNo) (vm : Bool) :
    VectorOpcode.Statement (.vwaddWx vd vs2 rs1 vm) := .inl (fOpcode_encOpV ..)

theorem VectorOpcode.vwsubuWv (vd vs2 vs1 : RegNo) (vm : Bool) :
    VectorOpcode.Statement (.vwsubuWv vd vs2 vs1 vm) := .inl (fOpcode_encOpV ..)

theorem VectorOpcode.vwsubuWx (vd vs2 rs1 : RegNo) (vm : Bool) :
    VectorOpcode.Statement (.vwsubuWx vd vs2 rs1 vm) := .inl (fOpcode_encOpV ..)

theorem VectorOpcode.vwsubWv (vd vs2 vs1 : RegNo) (vm : Bool) :
    VectorOpcode.Statement (.vwsubWv vd vs2 vs1 vm) := .inl (fOpcode_encOpV ..)

theorem VectorOpcode.vwsubWx (vd vs2 rs1 : RegNo) (vm : Bool) :
    VectorOpcode.Statement (.vwsubWx vd vs2 rs1 vm) := .inl (fOpcode_encOpV ..)

theorem VectorOpcode.vzextVf8 (vd vs2 : RegNo) (vm : Bool) :
    VectorOpcode.Statement (.vzextVf8 vd vs2 vm) := .inl (fOpcode_encOpV ..)

theorem VectorOpcode.vsextVf8 (vd vs2 : RegNo) (vm : Bool) :
    VectorOpcode.Statement (.vsextVf8 vd vs2 vm) := .inl (fOpcode_encOpV ..)

theorem VectorOpcode.vzextVf4 (vd vs2 : RegNo) (vm : Bool) :
    VectorOpcode.Statement (.vzextVf4 vd vs2 vm) := .inl (fOpcode_encOpV ..)

theorem VectorOpcode.vsextVf4 (vd vs2 : RegNo) (vm : Bool) :
    VectorOpcode.Statement (.vsextVf4 vd vs2 vm) := .inl (fOpcode_encOpV ..)

theorem VectorOpcode.vzextVf2 (vd vs2 : RegNo) (vm : Bool) :
    VectorOpcode.Statement (.vzextVf2 vd vs2 vm) := .inl (fOpcode_encOpV ..)

theorem VectorOpcode.vsextVf2 (vd vs2 : RegNo) (vm : Bool) :
    VectorOpcode.Statement (.vsextVf2 vd vs2 vm) := .inl (fOpcode_encOpV ..)

theorem VectorOpcode.vadcVvm (vd vs2 vs1 : RegNo) :
    VectorOpcode.Statement (.vadcVvm vd vs2 vs1) := .inl (fOpcode_encOpV ..)

theorem VectorOpcode.vadcVxm (vd vs2 rs1 : RegNo) :
    VectorOpcode.Statement (.vadcVxm vd vs2 rs1) := .inl (fOpcode_encOpV ..)

theorem VectorOpcode.vadcVim (vd vs2 : RegNo) (imm : BitVec 5) :
    VectorOpcode.Statement (.vadcVim vd vs2 imm) := .inl (fOpcode_encOpV ..)

theorem VectorOpcode.vmadcVvm (vd vs2 vs1 : RegNo) :
    VectorOpcode.Statement (.vmadcVvm vd vs2 vs1) := .inl (fOpcode_encOpV ..)

theorem VectorOpcode.vmadcVxm (vd vs2 rs1 : RegNo) :
    VectorOpcode.Statement (.vmadcVxm vd vs2 rs1) := .inl (fOpcode_encOpV ..)

theorem VectorOpcode.vmadcVim (vd vs2 : RegNo) (imm : BitVec 5) :
    VectorOpcode.Statement (.vmadcVim vd vs2 imm) := .inl (fOpcode_encOpV ..)

theorem VectorOpcode.vmadcVv (vd vs2 vs1 : RegNo) :
    VectorOpcode.Statement (.vmadcVv vd vs2 vs1) := .inl (fOpcode_encOpV ..)

theorem VectorOpcode.vmadcVx (vd vs2 rs1 : RegNo) :
    VectorOpcode.Statement (.vmadcVx vd vs2 rs1) := .inl (fOpcode_encOpV ..)

theorem VectorOpcode.vmadcVi (vd vs2 : RegNo) (imm : BitVec 5) :
    VectorOpcode.Statement (.vmadcVi vd vs2 imm) := .inl (fOpcode_encOpV ..)

theorem VectorOpcode.vsbcVvm (vd vs2 vs1 : RegNo) :
    VectorOpcode.Statement (.vsbcVvm vd vs2 vs1) := .inl (fOpcode_encOpV ..)

theorem VectorOpcode.vsbcVxm (vd vs2 rs1 : RegNo) :
    VectorOpcode.Statement (.vsbcVxm vd vs2 rs1) := .inl (fOpcode_encOpV ..)

theorem VectorOpcode.vmsbcVvm (vd vs2 vs1 : RegNo) :
    VectorOpcode.Statement (.vmsbcVvm vd vs2 vs1) := .inl (fOpcode_encOpV ..)

theorem VectorOpcode.vmsbcVxm (vd vs2 rs1 : RegNo) :
    VectorOpcode.Statement (.vmsbcVxm vd vs2 rs1) := .inl (fOpcode_encOpV ..)

theorem VectorOpcode.vmsbcVv (vd vs2 vs1 : RegNo) :
    VectorOpcode.Statement (.vmsbcVv vd vs2 vs1) := .inl (fOpcode_encOpV ..)

theorem VectorOpcode.vmsbcVx (vd vs2 rs1 : RegNo) :
    VectorOpcode.Statement (.vmsbcVx vd vs2 rs1) := .inl (fOpcode_encOpV ..)

theorem VectorOpcode.vmandMm (vd vs2 vs1 : RegNo) :
    VectorOpcode.Statement (.vmandMm vd vs2 vs1) := .inl (fOpcode_encOpV ..)

theorem VectorOpcode.vle8V (vd rs1 : RegNo) (vm : Bool) :
    VectorOpcode.Statement (.vle8V vd rs1 vm) := .inr (.inl (fOpcode_encMem ..))

theorem VectorOpcode.vle16V (vd rs1 : RegNo) (vm : Bool) :
    VectorOpcode.Statement (.vle16V vd rs1 vm) := .inr (.inl (fOpcode_encMem ..))

theorem VectorOpcode.vle32V (vd rs1 : RegNo) (vm : Bool) :
    VectorOpcode.Statement (.vle32V vd rs1 vm) := .inr (.inl (fOpcode_encMem ..))

theorem VectorOpcode.vle64V (vd rs1 : RegNo) (vm : Bool) :
    VectorOpcode.Statement (.vle64V vd rs1 vm) := .inr (.inl (fOpcode_encMem ..))

theorem VectorOpcode.vlse8V (vd rs1 rs2 : RegNo) (vm : Bool) :
    VectorOpcode.Statement (.vlse8V vd rs1 rs2 vm) := .inr (.inl (fOpcode_encMem ..))

theorem VectorOpcode.vlse16V (vd rs1 rs2 : RegNo) (vm : Bool) :
    VectorOpcode.Statement (.vlse16V vd rs1 rs2 vm) := .inr (.inl (fOpcode_encMem ..))

theorem VectorOpcode.vlse32V (vd rs1 rs2 : RegNo) (vm : Bool) :
    VectorOpcode.Statement (.vlse32V vd rs1 rs2 vm) := .inr (.inl (fOpcode_encMem ..))

theorem VectorOpcode.vlse64V (vd rs1 rs2 : RegNo) (vm : Bool) :
    VectorOpcode.Statement (.vlse64V vd rs1 rs2 vm) := .inr (.inl (fOpcode_encMem ..))

theorem VectorOpcode.vluxei8V (vd rs1 vs2 : RegNo) (vm : Bool) :
    VectorOpcode.Statement (.vluxei8V vd rs1 vs2 vm) := .inr (.inl (fOpcode_encMem ..))

theorem VectorOpcode.vluxei16V (vd rs1 vs2 : RegNo) (vm : Bool) :
    VectorOpcode.Statement (.vluxei16V vd rs1 vs2 vm) := .inr (.inl (fOpcode_encMem ..))

theorem VectorOpcode.vluxei32V (vd rs1 vs2 : RegNo) (vm : Bool) :
    VectorOpcode.Statement (.vluxei32V vd rs1 vs2 vm) := .inr (.inl (fOpcode_encMem ..))

theorem VectorOpcode.vluxei64V (vd rs1 vs2 : RegNo) (vm : Bool) :
    VectorOpcode.Statement (.vluxei64V vd rs1 vs2 vm) := .inr (.inl (fOpcode_encMem ..))

theorem VectorOpcode.vloxei8V (vd rs1 vs2 : RegNo) (vm : Bool) :
    VectorOpcode.Statement (.vloxei8V vd rs1 vs2 vm) := .inr (.inl (fOpcode_encMem ..))

theorem VectorOpcode.vloxei16V (vd rs1 vs2 : RegNo) (vm : Bool) :
    VectorOpcode.Statement (.vloxei16V vd rs1 vs2 vm) := .inr (.inl (fOpcode_encMem ..))

theorem VectorOpcode.vloxei32V (vd rs1 vs2 : RegNo) (vm : Bool) :
    VectorOpcode.Statement (.vloxei32V vd rs1 vs2 vm) := .inr (.inl (fOpcode_encMem ..))

theorem VectorOpcode.vloxei64V (vd rs1 vs2 : RegNo) (vm : Bool) :
    VectorOpcode.Statement (.vloxei64V vd rs1 vs2 vm) := .inr (.inl (fOpcode_encMem ..))

theorem VectorOpcode.vle8ffV (vd rs1 : RegNo) (vm : Bool) :
    VectorOpcode.Statement (.vle8ffV vd rs1 vm) := .inr (.inl (fOpcode_encMem ..))

theorem VectorOpcode.vle16ffV (vd rs1 : RegNo) (vm : Bool) :
    VectorOpcode.Statement (.vle16ffV vd rs1 vm) := .inr (.inl (fOpcode_encMem ..))

theorem VectorOpcode.vle32ffV (vd rs1 : RegNo) (vm : Bool) :
    VectorOpcode.Statement (.vle32ffV vd rs1 vm) := .inr (.inl (fOpcode_encMem ..))

theorem VectorOpcode.vle64ffV (vd rs1 : RegNo) (vm : Bool) :
    VectorOpcode.Statement (.vle64ffV vd rs1 vm) := .inr (.inl (fOpcode_encMem ..))

theorem VectorOpcode.vlmV (vd rs1 : RegNo) :
    VectorOpcode.Statement (.vlmV vd rs1) := .inr (.inl (fOpcode_encMem ..))

theorem VectorOpcode.vl1re8V (vd rs1 : RegNo) :
    VectorOpcode.Statement (.vl1re8V vd rs1) := .inr (.inl (fOpcode_encMem ..))

theorem VectorOpcode.vl1re16V (vd rs1 : RegNo) :
    VectorOpcode.Statement (.vl1re16V vd rs1) := .inr (.inl (fOpcode_encMem ..))

theorem VectorOpcode.vl1re32V (vd rs1 : RegNo) :
    VectorOpcode.Statement (.vl1re32V vd rs1) := .inr (.inl (fOpcode_encMem ..))

theorem VectorOpcode.vl1re64V (vd rs1 : RegNo) :
    VectorOpcode.Statement (.vl1re64V vd rs1) := .inr (.inl (fOpcode_encMem ..))

theorem VectorOpcode.vl2re8V (vd rs1 : RegNo) :
    VectorOpcode.Statement (.vl2re8V vd rs1) := .inr (.inl (fOpcode_encMem ..))

theorem VectorOpcode.vl2re16V (vd rs1 : RegNo) :
    VectorOpcode.Statement (.vl2re16V vd rs1) := .inr (.inl (fOpcode_encMem ..))

theorem VectorOpcode.vl2re32V (vd rs1 : RegNo) :
    VectorOpcode.Statement (.vl2re32V vd rs1) := .inr (.inl (fOpcode_encMem ..))

theorem VectorOpcode.vl2re64V (vd rs1 : RegNo) :
    VectorOpcode.Statement (.vl2re64V vd rs1) := .inr (.inl (fOpcode_encMem ..))

theorem VectorOpcode.vl4re8V (vd rs1 : RegNo) :
    VectorOpcode.Statement (.vl4re8V vd rs1) := .inr (.inl (fOpcode_encMem ..))

theorem VectorOpcode.vl4re16V (vd rs1 : RegNo) :
    VectorOpcode.Statement (.vl4re16V vd rs1) := .inr (.inl (fOpcode_encMem ..))

theorem VectorOpcode.vl4re32V (vd rs1 : RegNo) :
    VectorOpcode.Statement (.vl4re32V vd rs1) := .inr (.inl (fOpcode_encMem ..))

theorem VectorOpcode.vl4re64V (vd rs1 : RegNo) :
    VectorOpcode.Statement (.vl4re64V vd rs1) := .inr (.inl (fOpcode_encMem ..))

theorem VectorOpcode.vl8re8V (vd rs1 : RegNo) :
    VectorOpcode.Statement (.vl8re8V vd rs1) := .inr (.inl (fOpcode_encMem ..))

theorem VectorOpcode.vl8re16V (vd rs1 : RegNo) :
    VectorOpcode.Statement (.vl8re16V vd rs1) := .inr (.inl (fOpcode_encMem ..))

theorem VectorOpcode.vl8re32V (vd rs1 : RegNo) :
    VectorOpcode.Statement (.vl8re32V vd rs1) := .inr (.inl (fOpcode_encMem ..))

theorem VectorOpcode.vl8re64V (vd rs1 : RegNo) :
    VectorOpcode.Statement (.vl8re64V vd rs1) := .inr (.inl (fOpcode_encMem ..))

theorem VectorOpcode.vse8V (vs3 rs1 : RegNo) (vm : Bool) :
    VectorOpcode.Statement (.vse8V vs3 rs1 vm) := .inr (.inr (fOpcode_encMem ..))

theorem VectorOpcode.vse16V (vs3 rs1 : RegNo) (vm : Bool) :
    VectorOpcode.Statement (.vse16V vs3 rs1 vm) := .inr (.inr (fOpcode_encMem ..))

theorem VectorOpcode.vse32V (vs3 rs1 : RegNo) (vm : Bool) :
    VectorOpcode.Statement (.vse32V vs3 rs1 vm) := .inr (.inr (fOpcode_encMem ..))

theorem VectorOpcode.vse64V (vs3 rs1 : RegNo) (vm : Bool) :
    VectorOpcode.Statement (.vse64V vs3 rs1 vm) := .inr (.inr (fOpcode_encMem ..))

theorem VectorOpcode.vsse8V (vs3 rs1 rs2 : RegNo) (vm : Bool) :
    VectorOpcode.Statement (.vsse8V vs3 rs1 rs2 vm) := .inr (.inr (fOpcode_encMem ..))

theorem VectorOpcode.vsse16V (vs3 rs1 rs2 : RegNo) (vm : Bool) :
    VectorOpcode.Statement (.vsse16V vs3 rs1 rs2 vm) := .inr (.inr (fOpcode_encMem ..))

theorem VectorOpcode.vsse32V (vs3 rs1 rs2 : RegNo) (vm : Bool) :
    VectorOpcode.Statement (.vsse32V vs3 rs1 rs2 vm) := .inr (.inr (fOpcode_encMem ..))

theorem VectorOpcode.vsse64V (vs3 rs1 rs2 : RegNo) (vm : Bool) :
    VectorOpcode.Statement (.vsse64V vs3 rs1 rs2 vm) := .inr (.inr (fOpcode_encMem ..))

theorem VectorOpcode.vsuxei8V (vs3 rs1 vs2 : RegNo) (vm : Bool) :
    VectorOpcode.Statement (.vsuxei8V vs3 rs1 vs2 vm) := .inr (.inr (fOpcode_encMem ..))

theorem VectorOpcode.vsuxei16V (vs3 rs1 vs2 : RegNo) (vm : Bool) :
    VectorOpcode.Statement (.vsuxei16V vs3 rs1 vs2 vm) := .inr (.inr (fOpcode_encMem ..))

theorem VectorOpcode.vsuxei32V (vs3 rs1 vs2 : RegNo) (vm : Bool) :
    VectorOpcode.Statement (.vsuxei32V vs3 rs1 vs2 vm) := .inr (.inr (fOpcode_encMem ..))

theorem VectorOpcode.vsuxei64V (vs3 rs1 vs2 : RegNo) (vm : Bool) :
    VectorOpcode.Statement (.vsuxei64V vs3 rs1 vs2 vm) := .inr (.inr (fOpcode_encMem ..))

theorem VectorOpcode.vsoxei8V (vs3 rs1 vs2 : RegNo) (vm : Bool) :
    VectorOpcode.Statement (.vsoxei8V vs3 rs1 vs2 vm) := .inr (.inr (fOpcode_encMem ..))

theorem VectorOpcode.vsoxei16V (vs3 rs1 vs2 : RegNo) (vm : Bool) :
    VectorOpcode.Statement (.vsoxei16V vs3 rs1 vs2 vm) := .inr (.inr (fOpcode_encMem ..))

theorem VectorOpcode.vsoxei32V (vs3 rs1 vs2 : RegNo) (vm : Bool) :
    VectorOpcode.Statement (.vsoxei32V vs3 rs1 vs2 vm) := .inr (.inr (fOpcode_encMem ..))

theorem VectorOpcode.vsoxei64V (vs3 rs1 vs2 : RegNo) (vm : Bool) :
    VectorOpcode.Statement (.vsoxei64V vs3 rs1 vs2 vm) := .inr (.inr (fOpcode_encMem ..))

theorem VectorOpcode.vsmV (vs3 rs1 : RegNo) :
    VectorOpcode.Statement (.vsmV vs3 rs1) := .inr (.inr (fOpcode_encMem ..))

theorem VectorOpcode.vs1rV (vs3 rs1 : RegNo) :
    VectorOpcode.Statement (.vs1rV vs3 rs1) := .inr (.inr (fOpcode_encMem ..))

theorem VectorOpcode.vs2rV (vs3 rs1 : RegNo) :
    VectorOpcode.Statement (.vs2rV vs3 rs1) := .inr (.inr (fOpcode_encMem ..))

theorem VectorOpcode.vs4rV (vs3 rs1 : RegNo) :
    VectorOpcode.Statement (.vs4rV vs3 rs1) := .inr (.inr (fOpcode_encMem ..))

theorem VectorOpcode.vs8rV (vs3 rs1 : RegNo) :
    VectorOpcode.Statement (.vs8rV vs3 rs1) := .inr (.inr (fOpcode_encMem ..))

end Sys2Proof.Laws
end

