-- ==== Sys2Proof/Laws/Results.lean ====
section
/-! SUPPORT. What each memory and configuration operation does when its checks pass, in the terms of Safety.lean. -/

namespace Sys2Proof.Machine

open Sys2Proof.Config

/-! ### Loads governed by `vtype` (R252, R284) -/

section

variable {s : State} {insn : InsnWord} {vd : RegNo} {W : Nat} {vm : Bool} {addr : Nat → XWord}

/-- What a destination group in order gives the loops. -/
theorem dest_facts (hc : s.cfg.wf) (hl : s.vlN ≤ s.vlmax) (hmax : 1 ≤ s.vlmax) (hW : ∃ k, W = 2 ^ k)
    (hg : groupOk s.cfg vd (s.emul8 W) W = true) :
    FitsWidth s.cfg W ∧ s.vlN ≤ s.slots W ∧ s.slots W ≤ nregs (s.emul8 W) * (s.cfg.vlen / W) ∧
      vd.toNat + nregs (s.emul8 W) ≤ 32 := by
  obtain ⟨k, rfl⟩ := hW
  obtain ⟨h1, -, -, h4, -⟩ := groupOk_iff.mp hg
  have hwv := h4.trans (elen_le_vlen hc)
  exact ⟨fitsWidth_pow hc hwv, hl.trans (le_max_left _ _), State.slots_le hmax hwv h1, (State.group_fits hmax hg).1⟩

theorem vload_done (hc : s.cfg.wf) (hl : s.vlN ≤ s.vlmax) (hr : s.memReady) (hW : ∃ k, W = 2 ^ k)
    (hg : groupOk s.cfg vd (s.emul8 W) W = true) (hok : s.elementsOk .load W s.vlN (s.maskOn vm) addr) :
    ∃ t, vload s insn false vd W vm addr = .next t ∧
      LoadDone s t vd W s.vlN (s.slots W) (nregs (s.emul8 W)) s.vma s.vta (s.maskOn vm) addr := by
  have hmax : 1 ≤ s.vlmax := by have := hr.vstart; omega
  obtain ⟨h1, h2, h3, h4⟩ := dest_facts hc hl hmax hW hg
  unfold vload
  rw [if_pos (memLegal_of hr)]
  exact loadLoop_done h1 h2 h3 h4 hok

theorem vload_trapped {i : Nat} {c : Cause} {tval : XWord} (hc : s.cfg.wf) (hl : s.vlN ≤ s.vlmax) (hr : s.memReady)
    (hW : ∃ k, W = 2 ^ k) (hg : groupOk s.cfg vd (s.emul8 W) W = true)
    (hat : s.raisesAt .load W s.vlN (s.maskOn vm) addr i c tval) :
    ∃ t, vload s insn false vd W vm addr = .next t ∧
      LoadTrapped s t vd W s.vlN (s.slots W) (nregs (s.emul8 W)) s.vma s.vta (s.maskOn vm) addr i c tval := by
  have hmax : 1 ≤ s.vlmax := by have := hr.vstart; omega
  obtain ⟨h1, h2, h3, h4⟩ := dest_facts hc hl hmax hW hg
  unfold vload
  rw [if_pos (memLegal_of hr)]
  exact loadLoop_trapped h1 h2 h3 h4 hat

/-- The end of a fault-only-first load, element by element (R284). -/
theorem ffDone_firstDone {on : Nat → Bool} {limit : Nat} (hW : FitsWidth s.cfg W) (hb : s.vlN ≤ s.slots W)
    (hn : s.slots W ≤ nregs (s.emul8 W) * (s.cfg.vlen / W)) (hm : vd.toNat + nregs (s.emul8 W) ≤ 32)
    (h1 : s.vstartN ≤ limit) (h2 : limit ≤ s.vlN) : FirstDone s (ffDone s vd W on addr limit) vd W limit on addr := by
  have hn' : s.slots W ≤ 32 * (s.cfg.vlen / W) := hn.trans (Nat.mul_le_mul_right _ (by omega))
  have key : ∀ j < s.slots W, (ffDone s vd W on addr limit).elem vd W j =
      (loadSlot s vd W on addr limit s.vlN s.vma s.vta s.vta j).getD (s.elem vd W j) := by
    intro j hj
    exact (elemOf_writeElems hW _ _ _ _ _ hn' (by omega)).trans (by rw [if_pos hj]; rfl)
  refine ⟨completed_complete s _ rfl rfl rfl rfl rfl rfl rfl rfl rfl rfl rfl rfl rfl rfl rfl rfl, fun r => rfl, ?_, rfl,
    ⟨fun a => rfl, rfl⟩, ?_, ?_, ?_, ?_, otherRegsSame_of hm hn rfl⟩
  · show (BitVec.ofNat 64 limit).toNat = limit
    rw [BitVec.toNat_ofNat, Nat.mod_eq_of_lt]
    exact lt_of_le_of_lt h2 s.vl.isLt
  · intro j hj h; rw [key j hj, loadSlot, if_pos h]; rfl
  · intro j h3 h4 h5
    rw [key j (by omega), loadSlot, if_neg (by omega), if_pos h4, if_pos h5]; rfl
  · intro j h3 h4 h5
    rw [key j (by omega), loadSlot, if_neg (by omega), if_pos h4, if_neg (by simp [h5])]
    exact kept_ite_agnElem s j s.vma _
  · intro j hj h3 h4
    rw [key j hj, loadSlot, if_neg (by omega), if_neg (by omega)]
    by_cases h5 : j < s.vlN
    · have h6 : on j = false := by rcases h4 with h4 | h4 <;> [omega; exact h4]
      rw [if_pos h5, if_neg (by simp [h6])]
      exact kept_ite_agnElem s j s.vta _
    · rw [if_neg h5]
      exact kept_ite_agnElem s j s.vta _

/-- A fault-only-first load no active element of which stops processes `ffStart` elements (R284 (a), (d)). -/
theorem vleff_done (hc : s.cfg.wf) (hl : s.vlN ≤ s.vlmax) (hr : s.memReady) (hlt : s.vstartN < s.vlN)
    (hW : ∃ k, W = 2 ^ k) (hg : groupOk s.cfg vd (s.emul8 W) W = true)
    (hok : s.elementsOk .load W (ffStart s) (s.maskOn vm) addr) :
    ∃ t, vleff s insn false vd W vm addr = .next t ∧ FirstDone s t vd W (ffStart s) (s.maskOn vm) addr := by
  have hmax : 1 ≤ s.vlmax := by have := hr.vstart; omega
  obtain ⟨h1, h2, h3, h4⟩ := dest_facts hc hl hmax hW hg
  unfold vleff ffLoop
  rw [if_pos (memLegal_of hr), if_pos hlt, firstStop_elemCheck_none hok]
  exact ⟨_, rfl, ffDone_firstDone h1 h2 h3 h4 (ffStart_le hlt).1 (ffStart_le hlt).2⟩

/-- A fault-only-first load with no body changes no register (R43). -/
theorem vleff_empty (hr : s.memReady) (hlt : s.vlN ≤ s.vstartN) :
    vleff s insn false vd W vm addr = .next s.complete := by
  unfold vleff ffLoop
  rw [if_pos (memLegal_of hr), if_neg (by omega)]

/-- A fault past element 0 trims `vl` (R284 (c)). -/
theorem vleff_trimmed {i : Nat} {c : Cause} {tval : XWord} (hc : s.cfg.wf) (hl : s.vlN ≤ s.vlmax) (hr : s.memReady)
    (hlt : s.vstartN < s.vlN) (hW : ∃ k, W = 2 ^ k) (hg : groupOk s.cfg vd (s.emul8 W) W = true)
    (hat : s.raisesAt .load W (ffStart s) (s.maskOn vm) addr i c tval) (hi : 0 < i) :
    ∃ t, vleff s insn false vd W vm addr = .next t ∧ FirstDone s t vd W i (s.maskOn vm) addr := by
  have hmax : 1 ≤ s.vlmax := by have := hr.vstart; omega
  obtain ⟨h1, h2, h3, h4⟩ := dest_facts hc hl hmax hW hg
  obtain ⟨j, rfl⟩ := Nat.exists_eq_succ_of_ne_zero (by omega : i ≠ 0)
  have hlo := hat.lower
  have hup := hat.upper
  unfold vleff ffLoop
  rw [if_pos (memLegal_of hr), if_pos hlt, firstStop_elemCheck_some hat]
  exact ⟨_, rfl, ffDone_firstDone h1 h2 h3 h4 hlo (by have := (ffStart_le hlt).2; omega)⟩

end

/-! ### Loads with a length of their own (R289, R290) -/

theorem vlen_mod_eight {c : Params} (hc : c.wf) : c.vlen % 8 = 0 := by
  have h : (2 : Nat) ^ 3 ∣ 2 ^ c.lgVlen := Nat.pow_dvd_pow 2 (hc.1.trans hc.2.1)
  exact Nat.mod_eq_zero_of_dvd h

theorem vloadMask_done {s : State} {insn : InsnWord} {vd rs1 : RegNo} (hc : s.cfg.wf) (hl : s.vlN ≤ s.vlmax)
    (hv : s.vsEnabled = true) (hi : s.vill = false)
    (hok : s.elementsOk .load 8 s.maskEvl (fun _ => true) (unitAddr s rs1 1)) :
    ∃ t, vloadMask s insn vd rs1 = .next t ∧
      LoadDone s t vd 8 s.maskEvl (s.cfg.vlen / 8) 1 false true (fun _ => true) (unitAddr s rs1 1) := by
  have h8 : 2 ^ 3 ≤ s.cfg.vlen := Nat.pow_le_pow_right (by decide) (hc.1.trans hc.2.1)
  have hvl : s.vlN ≤ s.cfg.vlen := hl.trans (vlmaxOf_le _ _ _)
  have := vlen_mod_eight hc
  have hvd := vd.isLt
  unfold vloadMask
  rw [if_pos (by simp [hv, hi])]
  exact loadLoop_done (fitsWidth_pow (k := 3) hc h8) (by unfold State.maskEvl; omega) (by omega) (by omega) hok

theorem vloadMask_trapped {s : State} {insn : InsnWord} {vd rs1 : RegNo} {i : Nat} {c : Cause} {tval : XWord}
    (hc : s.cfg.wf) (hl : s.vlN ≤ s.vlmax) (hv : s.vsEnabled = true) (hi : s.vill = false)
    (hat : s.raisesAt .load 8 s.maskEvl (fun _ => true) (unitAddr s rs1 1) i c tval) :
    ∃ t, vloadMask s insn vd rs1 = .next t ∧
      LoadTrapped s t vd 8 s.maskEvl (s.cfg.vlen / 8) 1 false true (fun _ => true) (unitAddr s rs1 1) i c tval := by
  have h8 : 2 ^ 3 ≤ s.cfg.vlen := Nat.pow_le_pow_right (by decide) (hc.1.trans hc.2.1)
  have hvl : s.vlN ≤ s.cfg.vlen := hl.trans (vlmaxOf_le _ _ _)
  have := vlen_mod_eight hc
  have hvd := vd.isLt
  unfold vloadMask
  rw [if_pos (by simp [hv, hi])]
  exact loadLoop_trapped (fitsWidth_pow (k := 3) hc h8) (by unfold State.maskEvl; omega) (by omega) (by omega) hat

/-- The elements of `n` whole registers fill them exactly. -/
theorem whole_slots {c : Params} {W : Nat} (h : FitsWidth c W) (n : Nat) : n * c.vlen / W = n * (c.vlen / W) :=
  Nat.mul_div_assoc n h.dvd

theorem vloadWhole_done {s : State} {insn : InsnWord} {vd rs1 : RegNo} {n w : Nat} (hc : s.cfg.wf)
    (hv : s.vsEnabled = true) (hw : isEncodedWidth w) (hn : n = 1 ∨ n = 2 ∨ n = 4 ∨ n = 8) (ha : vd.toNat % n = 0)
    (he : w ≤ s.cfg.elen)
    (hok : s.elementsOk .load w (n * s.cfg.vlen / w) (fun _ => true) (unitAddr s rs1 (w / 8))) :
    ∃ t, vloadWhole s insn vd rs1 n w = .next t ∧
      LoadDone s t vd w (n * s.cfg.vlen / w) (n * s.cfg.vlen / w) n false false (fun _ => true)
        (unitAddr s rs1 (w / 8)) := by
  have hfit := hw.fits hc (he.trans (elen_le_vlen hc))
  unfold vloadWhole
  rw [if_pos (by simp [hv, ha, he])]
  exact loadLoop_done hfit le_rfl (whole_slots hfit n).le (aligned_add_le hn ha) hok

theorem vloadWhole_trapped {s : State} {insn : InsnWord} {vd rs1 : RegNo} {n w i : Nat} {c : Cause} {tval : XWord}
    (hc : s.cfg.wf) (hv : s.vsEnabled = true) (hw : isEncodedWidth w) (hn : n = 1 ∨ n = 2 ∨ n = 4 ∨ n = 8)
    (ha : vd.toNat % n = 0) (he : w ≤ s.cfg.elen)
    (hat : s.raisesAt .load w (n * s.cfg.vlen / w) (fun _ => true) (unitAddr s rs1 (w / 8)) i c tval) :
    ∃ t, vloadWhole s insn vd rs1 n w = .next t ∧
      LoadTrapped s t vd w (n * s.cfg.vlen / w) (n * s.cfg.vlen / w) n false false (fun _ => true)
        (unitAddr s rs1 (w / 8)) i c tval := by
  have hfit := hw.fits hc (he.trans (elen_le_vlen hc))
  unfold vloadWhole
  rw [if_pos (by simp [hv, ha, he])]
  exact loadLoop_trapped hfit le_rfl (whole_slots hfit n).le (aligned_add_le hn ha) hat

/-! ### Stores -/

theorem vstore_done {s : State} {insn : InsnWord} {vs3 : RegNo} {W : Nat} {vm ordered : Bool} {addr : Nat → XWord}
    (hr : s.memReady) (hok : s.elementsOk .store W s.vlN (s.maskOn vm) addr) :
    ∃ t, vstore s insn false vs3 W vm addr ordered = .next t ∧ StoreDone s t vs3 W s.vlN (s.maskOn vm) addr := by
  unfold vstore
  rw [if_pos (memLegal_of hr)]
  exact storeLoop_done hok

theorem vstore_trapped {s : State} {insn : InsnWord} {vs3 : RegNo} {W i : Nat} {vm ordered : Bool}
    {addr : Nat → XWord} {c : Cause} {tval : XWord} (hr : s.memReady)
    (hat : s.raisesAt .store W s.vlN (s.maskOn vm) addr i c tval) :
    ∃ t, vstore s insn false vs3 W vm addr ordered = .next t ∧
      StoreTrapped s t vs3 W s.vlN (s.maskOn vm) addr i c tval := by
  unfold vstore
  rw [if_pos (memLegal_of hr)]
  exact storeLoop_trapped hat

theorem vstoreMask_done {s : State} {insn : InsnWord} {vs3 rs1 : RegNo} (hv : s.vsEnabled = true)
    (hi : s.vill = false) (hok : s.elementsOk .store 8 s.maskEvl (fun _ => true) (unitAddr s rs1 1)) :
    ∃ t, vstoreMask s insn vs3 rs1 = .next t ∧
      StoreDone s t vs3 8 s.maskEvl (fun _ => true) (unitAddr s rs1 1) := by
  unfold vstoreMask
  rw [if_pos (by simp [hv, hi])]
  exact storeLoop_done hok

theorem vstoreWhole_done {s : State} {insn : InsnWord} {vs3 rs1 : RegNo} {n : Nat} (hv : s.vsEnabled = true)
    (ha : vs3.toNat % n = 0)
    (hok : s.elementsOk .store 8 (n * s.cfg.vlen / 8) (fun _ => true) (unitAddr s rs1 1)) :
    ∃ t, vstoreWhole s insn vs3 rs1 n = .next t ∧
      StoreDone s t vs3 8 (n * s.cfg.vlen / 8) (fun _ => true) (unitAddr s rs1 1) := by
  unfold vstoreWhole
  rw [if_pos (by simp [hv, ha])]
  exact storeLoop_done hok

/-! ### Configuration -/

/-- A configuration instruction while the vector unit is on (R135). -/
theorem vset_done {s : State} {insn : InsnWord} {rd : RegNo} {sel : AvlSel} {cand : XWord}
    (hv : s.vsEnabled = true) :
    ∃ t, vset s insn rd sel cand = .next t ∧ Completed s t ∧ t.vl = (vsetResult s rd sel cand).1 ∧
      t.vtype = (vsetResult s rd sel cand).2 ∧
      (∀ r, t.readX r =
        if r = rd ∧ rd ≠ 0#5 then truncX s.cfg (vsetResult s rd sel cand).1 else s.readX r) ∧
      SameVectors s t ∧ SameMemory s t := by
  unfold vset
  rw [if_pos hv]
  refine ⟨_, rfl, ?_, ?_, ?_, ?_, fun r => ?_, fun a => ?_, ?_⟩
  · apply completed_complete <;> simp
  · simp
  · simp
  · intro r
    exact State.readX_writeX _ rd r _
  all_goals simp

/-! ### The fetch (R62, R69, R76) -/

/-- The fetch reads the four bytes at `pc` from memory. -/
theorem fetch_eq {s : State} (h1 : fetchAligned s = true) (h2 : memAdmits s.cfg s.pc.toNat 4 .fetch = .ok)
    (h3 : (attrAt s.cfg s.pc.toNat 4).idempotent = true) (h4 : ∀ k < 4, fetchAddress s k ∉ s.unsynced) :
    fetch s = .word (wordOfBytes (Mem.read s.mem (fetchAddress s 0)) (Mem.read s.mem (fetchAddress s 1))
      (Mem.read s.mem (fetchAddress s 2)) (Mem.read s.mem (fetchAddress s 3))) := by
  have hb : ∀ k < 4, fetchByte s (fetchAddress s k) = Mem.read s.mem (fetchAddress s k) := by
    intro k hk
    unfold fetchByte
    rw [if_neg (by simpa using h4 k hk)]
  unfold fetch
  rw [if_neg (by simp [h1]), h2]
  simp only [h3, if_true, hb 0 (by decide), hb 1 (by decide), hb 2 (by decide), hb 3 (by decide)]

end Sys2Proof.Machine
end

