-- ==== Sys2Proof/Laws/Steps.lean ====
section
/-! SUPPORT. What a step can do, once; and the result lemmas in the form the statements about instructions use them:
readiness, a check that passes, and the result. -/

namespace Sys2Proof.Machine

open Sys2Proof.Config

/-! ### The step -/

/-- Every next state of a step is a trap of the fetch or of a reserved word, or comes from an instruction. -/
theorem step_next_cases {s t : State} (h : step s = .next t) :
    s.cfg.wf ∧
      ((∃ c, t = s.takeTrap c s.pc ∧ (fetchAligned s = true ∨ c = .instrAddressMisaligned)) ∨ (∃ w, t = s.illegal w) ∨
        ∃ i, exec i s = .next t ∧ fetchAligned s = true) := by
  unfold step at h
  split at h
  · next hc =>
    refine ⟨hc, ?_⟩
    split at h
    · next c tval hf =>
      cases h
      left
      unfold fetch at hf
      split at hf
      · cases hf
        exact ⟨_, rfl, .inr rfl⟩
      · next hal =>
        have hal2 : fetchAligned s = true := by simpa using hal
        repeat' split at hf
        all_goals first
          | (cases hf; exact ⟨_, rfl, .inl hal2⟩)
          | cases hf
    · cases h
    · next w hf =>
      have hal : fetchAligned s = true := by
        unfold fetch at hf
        split at hf
        · cases hf
        · next hal => simpa using hal
      unfold runDecoded at h
      split at h
      · exact .inr (.inr ⟨_, h, hal⟩)
      · cases h
        exact .inr (.inl ⟨_, rfl⟩)
      · cases h
      · cases h
  · cases h

theorem vlN_le_vlen_of_sized {s : State} (h : s.sized) : s.vlN ≤ s.cfg.vlen := h.vl.trans (vlmaxOf_le _ _ _)

theorem vlN_le_vlen_of_vtypeLegal {s : State} (h : s.vtypeLegal) : s.vlN ≤ s.cfg.vlen := by
  rcases h with ⟨_, _, h⟩ | ⟨_, _, _, h⟩
  · simp [State.vlN, h]
  · exact h.trans (vlmaxOf_le _ _ _)

/-! ### Legal states -/

theorem truncX_toNat (c : Params) (a : XWord) : (truncX c a).toNat = a.toNat % 2 ^ c.xbits := by
  unfold truncX
  cases hc : c.xlen <;> simp [Params.xbits, hc, XLen.bits] <;> omega

/-- A handler's address is aligned (R356). -/
theorem tvecBase_aligned (c : Params) (a : XWord) : (tvecBase c a).toNat % 4 = 0 := by
  have h : (a &&& ~~~3#64).toNat % 4 = 0 := by
    have h3 : (a &&& ~~~3#64) &&& 3#64 = 0 := by
      rw [BitVec.and_assoc, BitVec.and_comm (~~~3#64), BitVec.and_not_self]
      exact BitVec.and_zero
    have h4 := congrArg BitVec.toNat h3
    rw [BitVec.toNat_and] at h4
    change _ &&& (2 ^ 2 - 1) = _ at h4
    rw [Nat.and_two_pow_sub_one_eq_mod] at h4
    exact h4
  unfold tvecBase
  rw [truncX_toNat]
  cases hc : c.xlen <;> simp only [Params.xbits, hc, XLen.bits] <;> omega

theorem sameMemory_of_eq {s t : State} (h : t.mem = s.mem) (h2 : t.unsynced = s.unsynced) : SameMemory s t :=
  ⟨fun a => by rw [h], h2⟩

theorem State.vtypeLegal.of_eq {s t : State} (h : s.vtypeLegal) (h1 : t.vl = s.vl) (h2 : t.vtype = s.vtype)
    (h3 : t.cfg = s.cfg) : t.vtypeLegal := by
  unfold State.vtypeLegal State.vill State.vtypeSupported State.vlN State.vlmax at *
  rw [h1, h2, h3]
  exact h

theorem State.memoryLegal.of_eq {s t : State} (h : s.memoryLegal) (h1 : t.mem = s.mem) (h2 : t.unsynced = s.unsynced)
    (h3 : t.cfg = s.cfg) : t.memoryLegal where
  wf := by rw [h1]; exact h.wf
  bounded := by rw [h1, h3]; exact h.bounded
  rising := by rw [h2]; exact h.rising
  unsyncedBounded := by rw [h2, h3]; exact h.unsyncedBounded

/-- Storing bytes inside the address space keeps memory legal (R60, R76). -/
theorem State.memoryLegal.storeBytes {s : State} {ws : List (Nat × Byte)} (h : s.memoryLegal)
    (hw : ∀ p ∈ ws, p.1 < 2 ^ s.cfg.xbits) : (s.storeBytes ws).memoryLegal where
  wf := Mem.wf_writes h.wf
  bounded := fun p hp => by
    rcases Mem.mem_writes hp with hp | hp
    · exact hw _ hp
    · exact h.bounded _ hp
  rising := pairwise_foldl_insertAddr h.rising
  unsyncedBounded := fun a ha => by
    simp only [State.storeBytes_unsynced, mem_foldl_insertAddr] at ha
    rcases ha with ha | ha
    · exact h.unsyncedBounded _ ha
    · obtain ⟨p, hp, rfl⟩ := ha
      exact hw _ hp

/-! ### Results behind a check that passes -/

variable {s : State} {insn : InsnWord} {reserved : Bool} {vd : RegNo} {W : Nat}

/-- An arithmetic instruction whose operands are not reserved completes (R155). -/
theorem arithVec_completes {on : Nat → Bool} {result result' : Nat → BitVec W} (hs : s.sized) (hr : s.arithReady)
    (hW : ∃ k, W = 2 ^ k) (hg : groupOk s.cfg vd (s.emul8 W) W = true) (hres : reserved = false)
    (he : ∀ i, result i = result' i) :
    ∃ t, arithVec s insn reserved vd W on result = .next t ∧ ArithDone s t vd W on result' := by
  subst hres
  obtain rfl : result = result' := funext he
  have hmax : 1 ≤ s.vlmax := by have := hr.vstart; omega
  obtain ⟨h1, h2, h3, h4⟩ := dest_facts hs.params hs.vl hmax hW hg
  apply arithVec_done <;> first | assumption | exact hs.params | exact hs.vl

/-- The same with a mask destination (R156). -/
theorem arithMask_completes {bit bit' : Nat → Bool} (hs : s.sized) (hr : s.arithReady) (hres : reserved = false)
    (he : ∀ i, bit i = bit' i) :
    ∃ t, arithMask s insn reserved vd bit = .next t ∧ MaskDone s t vd bit' := by
  subst hres
  obtain rfl : bit = bit' := funext he
  exact arithMask_done hs.params hs.vl hr

/-- A load whose operands are not reserved and whose accesses do not stop completes (R252). -/
theorem vload_completes {vm : Bool} {addr : Nat → XWord} (hs : s.sized) (hr : s.memReady) (hW : ∃ k, W = 2 ^ k)
    (hg : groupOk s.cfg vd (s.emul8 W) W = true) (hres : reserved = false)
    (hok : s.elementsOk .load W s.vlN (s.maskOn vm) addr) :
    ∃ t, vload s insn reserved vd W vm addr = .next t ∧
      LoadDone s t vd W s.vlN (s.slots W) (nregs (s.emul8 W)) s.vma s.vta (s.maskOn vm) addr := by
  subst hres
  exact vload_done hs.params hs.vl hr hW hg hok

/-- A load of which an element raises traps there (R253). -/
theorem vload_traps {vm : Bool} {addr : Nat → XWord} {i : Nat} {c : Cause} {tval : XWord} (hs : s.sized)
    (hr : s.memReady) (hW : ∃ k, W = 2 ^ k) (hg : groupOk s.cfg vd (s.emul8 W) W = true) (hres : reserved = false)
    (hat : s.raisesAt .load W s.vlN (s.maskOn vm) addr i c tval) :
    ∃ t, vload s insn reserved vd W vm addr = .next t ∧
      LoadTrapped s t vd W s.vlN (s.slots W) (nregs (s.emul8 W)) s.vma s.vta (s.maskOn vm) addr i c tval := by
  subst hres
  exact vload_trapped hs.params hs.vl hr hW hg hat

/-- A store whose operands are not reserved and whose accesses do not stop completes (R312). -/
theorem vstore_completes {vm ordered : Bool} {addr : Nat → XWord} (hr : s.memReady) (hres : reserved = false)
    (hok : s.elementsOk .store W s.vlN (s.maskOn vm) addr) :
    ∃ t, vstore s insn reserved vd W vm addr ordered = .next t ∧
      StoreDone s t vd W s.vlN (s.maskOn vm) addr := by
  subst hres
  exact vstore_done hr hok

/-- A store of which an element raises traps there (R313). -/
theorem vstore_traps {vm ordered : Bool} {addr : Nat → XWord} {i : Nat} {c : Cause} {tval : XWord} (hr : s.memReady)
    (hres : reserved = false) (hat : s.raisesAt .store W s.vlN (s.maskOn vm) addr i c tval) :
    ∃ t, vstore s insn reserved vd W vm addr ordered = .next t ∧
      StoreTrapped s t vd W s.vlN (s.maskOn vm) addr i c tval := by
  subst hres
  exact vstore_trapped hr hat

/-- A configuration instruction with a supported candidate and an AVL sets `vl` and `vtype` (R135). -/
theorem vset_completes {rd : RegNo} {sel : AvlSel} {cand : XWord} {avl : Nat} (hc : s.cfg.wf)
    (hv : s.vsEnabled = true) (hok : vtypeOk s.cfg cand = true)
    (ha : avlOf s rd sel (vlmaxOf s.cfg (fieldVsew cand) (fieldVlmul cand)) = some avl) :
    ∃ t, vset s insn rd sel cand = .next t ∧
      ConfigDone s t rd (chooseVl s.cfg avl (vlmaxOf s.cfg (fieldVsew cand) (fieldVlmul cand))) cand := by
  obtain ⟨t, h1, h2, h3, h4, h5, h6, h7⟩ := vset_done (s := s) (insn := insn) (rd := rd) (sel := sel) (cand := cand) hv
  have hr : vsetResult s rd sel cand =
      (BitVec.ofNat 64 (chooseVl s.cfg avl (vlmaxOf s.cfg (fieldVsew cand) (fieldVlmul cand))), cand) := by
    simp [vsetResult, hok, ha]
  rw [hr] at h3 h4 h5
  refine ⟨t, h1, h2, h3, h4, fun h8 => ?_, fun r h8 => ?_, h6, h7⟩
  · rw [h5, if_pos ⟨rfl, h8⟩]
    have hle := (chooseVl_le s.cfg avl (vlmaxOf s.cfg (fieldVsew cand) (fieldVlmul cand))).trans
      ((vlmaxOf_le _ _ _).trans (vlen_le hc))
    apply BitVec.eq_of_toNat_eq
    rw [truncX_toNat]
    have hlt : chooseVl s.cfg avl (vlmaxOf s.cfg (fieldVsew cand) (fieldVlmul cand)) < 2 ^ s.cfg.xbits := by
      cases hx : s.cfg.xlen <;> simp only [Params.xbits, hx, XLen.bits] <;> omega
    rw [BitVec.toNat_ofNat, Nat.mod_eq_of_lt (by omega : _ < 2 ^ 64), Nat.mod_eq_of_lt hlt]
  · rw [h5, if_neg]
    tauto

end Sys2Proof.Machine
end

