-- ==== Sys2Proof/Laws/Stops.lean ====
section
/-! SUPPORT. For each shared operation, once, what it does when it does not complete: reserved operands raise
IllegalInstruction, an element that raises traps, an access outside main memory is refused. -/

namespace Sys2Proof.Machine

open Sys2Proof.Config

variable {s : State} {insn : InsnWord} {reserved : Bool} {vd rs1 : RegNo} {W : Nat} {vm : Bool} {addr : Nat → XWord}

/-! ### Reserved operands (R118) -/

/-- IllegalInstruction is taken, with nothing else changed (R352). -/
theorem illegal_next (s : State) (insn : InsnWord) : ∃ t, (.next (s.illegal insn) : Result) = .next t ∧ IllegalDone s t insn :=
  ⟨_, rfl, illegalDone_illegal s insn⟩

theorem arithVec_illegal {on : Nat → Bool} {result : Nat → BitVec W} (h : reserved = true) :
    ∃ t, arithVec s insn reserved vd W on result = .next t ∧ IllegalDone s t insn := by
  subst h
  unfold arithVec
  rw [if_neg (by simp [State.arithLegal])]
  exact illegal_next s insn

theorem arithMask_illegal {bit : Nat → Bool} (h : reserved = true) :
    ∃ t, arithMask s insn reserved vd bit = .next t ∧ IllegalDone s t insn := by
  subst h
  unfold arithMask
  rw [if_neg (by simp [State.arithLegal])]
  exact illegal_next s insn

theorem vload_illegal (h : reserved = true) :
    ∃ t, vload s insn reserved vd W vm addr = .next t ∧ IllegalDone s t insn := by
  subst h
  unfold vload
  rw [if_neg (by simp [State.memLegal])]
  exact illegal_next s insn

theorem vleff_illegal (h : reserved = true) :
    ∃ t, vleff s insn reserved vd W vm addr = .next t ∧ IllegalDone s t insn := by
  subst h
  unfold vleff
  rw [if_neg (by simp [State.memLegal])]
  exact illegal_next s insn

theorem vstore_illegal {ordered : Bool} (h : reserved = true) :
    ∃ t, vstore s insn reserved vd W vm addr ordered = .next t ∧ IllegalDone s t insn := by
  subst h
  unfold vstore
  rw [if_neg (by simp [State.memLegal])]
  exact illegal_next s insn

theorem vloadWhole_illegal {n w : Nat} (h : vd.toNat % n ≠ 0 ∨ s.cfg.elen < w) :
    ∃ t, vloadWhole s insn vd rs1 n w = .next t ∧ IllegalDone s t insn := by
  unfold vloadWhole
  rw [if_neg (by rcases h with h | h <;> simp [h])]
  exact illegal_next s insn

theorem vstoreWhole_illegal {n : Nat} (h : vd.toNat % n ≠ 0) :
    ∃ t, vstoreWhole s insn vd rs1 n = .next t ∧ IllegalDone s t insn := by
  unfold vstoreWhole
  rw [if_neg (by simp [h])]
  exact illegal_next s insn

/-! ### Accesses outside main memory (R71) -/

section

variable {k : AccessKind} {body i : Nat} {on : Nat → Bool}

/-- The access outside main memory is the first stop found. -/
theorem firstStop_elemCheck_device {n : Nat} (h : s.outsideAt k W body on addr i) (hn : i < s.vstartN + n) :
    firstStop (elemCheck s k W on addr) s.vstartN n = some (i, .device (addr i)) := by
  rw [firstStop_eq_some]
  refine ⟨h.lower, hn, ?_, fun j h1 h2 => ?_⟩
  · unfold elemCheck checkAccess
    rw [if_pos h.active, if_neg, h.admitted]
    · simp [h.outside]
    · rintro ⟨h1, h2⟩
      rcases h.aligned with h3 | h3
      · exact h1 h3
      · rw [h2] at h3; cases h3
  · unfold elemCheck
    split_ifs with h3
    · exact checkAccess_eq_none.mpr (h.earlier j h1 h2 h3)
    · rfl

theorem loadLoop_refused {n : Nat} {vma vta : Bool} (h : s.outsideAt .load W body on addr i) :
    loadLoop s vd W body n on addr vma vta = .refused (.notMainMemory (addr i)) := by
  have h1 := h.lower; have h2 := h.upper
  unfold loadLoop
  rw [if_pos (by omega), firstStop_elemCheck_device h (by omega)]

theorem storeLoop_refused {ordered : Bool} (h : s.outsideAt .store W body on addr i) :
    storeLoop s vd W body on addr ordered = .refused (.notMainMemory (addr i)) := by
  have h1 := h.lower; have h2 := h.upper
  unfold storeLoop
  rw [if_pos (by omega), firstStop_elemCheck_device h (by omega)]

theorem vload_refused (hr : s.memReady) (hres : reserved = false)
    (h : s.outsideAt .load W s.vlN (s.maskOn vm) addr i) :
    vload s insn reserved vd W vm addr = .refused (.notMainMemory (addr i)) := by
  subst hres
  unfold vload
  rw [if_pos (memLegal_of hr), loadLoop_refused h]

theorem vstore_refused {ordered : Bool} (hr : s.memReady) (hres : reserved = false)
    (h : s.outsideAt .store W s.vlN (s.maskOn vm) addr i) :
    vstore s insn reserved vd W vm addr ordered = .refused (.notMainMemory (addr i)) := by
  subst hres
  unfold vstore
  rw [if_pos (memLegal_of hr), storeLoop_refused h]

theorem vloadMask_refused (hv : s.vsEnabled = true) (hi : s.vill = false)
    (h : s.outsideAt .load 8 s.maskEvl (fun _ => true) (unitAddr s rs1 1) i) :
    vloadMask s insn vd rs1 = .refused (.notMainMemory (unitAddr s rs1 1 i)) := by
  unfold vloadMask
  rw [if_pos (by simp [hv, hi]), loadLoop_refused h]

theorem vstoreMask_refused (hv : s.vsEnabled = true) (hi : s.vill = false)
    (h : s.outsideAt .store 8 s.maskEvl (fun _ => true) (unitAddr s rs1 1) i) :
    vstoreMask s insn vd rs1 = .refused (.notMainMemory (unitAddr s rs1 1 i)) := by
  unfold vstoreMask
  rw [if_pos (by simp [hv, hi]), storeLoop_refused h]

theorem vloadWhole_refused {n w : Nat} (hv : s.vsEnabled = true) (ha : vd.toNat % n = 0) (he : w ≤ s.cfg.elen)
    (h : s.outsideAt .load w (n * s.cfg.vlen / w) (fun _ => true) (unitAddr s rs1 (w / 8)) i) :
    vloadWhole s insn vd rs1 n w = .refused (.notMainMemory (unitAddr s rs1 (w / 8) i)) := by
  unfold vloadWhole
  rw [if_pos (by simp [hv, ha, he]), loadLoop_refused h]

theorem vstoreWhole_refused {n : Nat} (hv : s.vsEnabled = true) (ha : vd.toNat % n = 0)
    (h : s.outsideAt .store 8 (n * s.cfg.vlen / 8) (fun _ => true) (unitAddr s rs1 1) i) :
    vstoreWhole s insn vd rs1 n = .refused (.notMainMemory (unitAddr s rs1 1 i)) := by
  unfold vstoreWhole
  rw [if_pos (by simp [hv, ha]), storeLoop_refused h]

end

/-! ### Fault-only-first loads (R284) -/

/-- The bounds of the length a fault-only-first load sets out to process (R284 (d)). -/
theorem ffStart_bounds (h : s.vstartN < s.vlN) :
    1 ≤ ffStart s ∧ s.vstartN ≤ ffStart s ∧ ffStart s ≤ s.vlN ∧ (s.cfg.ffTrim = .never → ffStart s = s.vlN) := by
  obtain ⟨h1, h2⟩ := ffStart_le h
  refine ⟨?_, h1, h2, fun h3 => by simp [ffStart, h3]⟩
  unfold ffStart
  cases s.cfg.ffTrim with
  | never => dsimp only; omega
  | mayTrim => dsimp only; split <;> omega

/-- A fault-only-first load that draws a limit no active element below which stops (R284 (a), (d)). -/
theorem vleff_limited (hs : s.sized) (hr : s.memReady) (hlt : s.vstartN < s.vlN) (hW : ∃ k, W = 2 ^ k)
    (hg : groupOk s.cfg vd (s.emul8 W) W = true) (hres : reserved = false) {i : Nat} (hi : ffStart s ≤ i)
    (hok : ∀ j, s.vstartN ≤ j → j < i → s.maskOn vm j = true → s.accessOk .load (addr j) (W / 8)) :
    ∃ t, vleff s insn reserved vd W vm addr = .next t ∧ FirstDone s t vd W (ffStart s) (s.maskOn vm) addr := by
  subst hres
  exact vleff_done hs.params hs.vl hr hlt hW hg fun j h1 h2 h3 => hok j h1 (by omega) h3

/-- A fault past element 0: `vl` is cut at the element, or before it where the limit drawn was lower (R284 (c), (d)). -/
theorem vleff_cut (hs : s.sized) (hr : s.memReady) (hW : ∃ k, W = 2 ^ k)
    (hg : groupOk s.cfg vd (s.emul8 W) W = true) (hres : reserved = false) {i : Nat} {c : Cause} {tval : XWord}
    (hat : s.raisesAt .load W s.vlN (s.maskOn vm) addr i c tval) (hi : 0 < i) :
    ∃ n, 1 ≤ n ∧ s.vstartN ≤ n ∧ n ≤ i ∧ (s.cfg.ffTrim = .never → n = i) ∧
      ∃ t, vleff s insn reserved vd W vm addr = .next t ∧ FirstDone s t vd W n (s.maskOn vm) addr := by
  have hlo := hat.lower; have hup := hat.upper
  have hlt : s.vstartN < s.vlN := by omega
  obtain ⟨h1, h2, h3, h4⟩ := ffStart_bounds hlt
  by_cases h : ffStart s ≤ i
  · exact ⟨ffStart s, h1, h2, h, fun h5 => by have := h4 h5; omega,
      vleff_limited hs hr hlt hW hg hres h hat.earlier⟩
  · subst hres
    exact ⟨i, hi, hlo, le_rfl, fun _ => rfl,
      vleff_trimmed hs.params hs.vl hr hlt hW hg ⟨hlo, by omega, hat.active, hat.raises, hat.earlier⟩ hi⟩

/-- A fault of element 0 traps as in the other loads, `vl` unchanged (R284 (b)). -/
theorem vleff_trapped (hs : s.sized) (hr : s.memReady) (hW : ∃ k, W = 2 ^ k)
    (hg : groupOk s.cfg vd (s.emul8 W) W = true) (hres : reserved = false) {c : Cause} {tval : XWord}
    (hat : s.raisesAt .load W s.vlN (s.maskOn vm) addr 0 c tval) :
    ∃ t, vleff s insn reserved vd W vm addr = .next t ∧
      LoadTrapped s t vd W s.vlN (s.slots W) (nregs (s.emul8 W)) s.vma s.vta (s.maskOn vm) addr 0 c tval := by
  subst hres
  have hlo := hat.lower; have hup := hat.upper
  have hlt : s.vstartN < s.vlN := by omega
  have h1 := (ffStart_bounds hlt).1
  obtain ⟨t, ht, hd⟩ := vload_trapped (insn := insn) hs.params hs.vl hr hW hg hat
  refine ⟨t, ht ▸ ?_, hd⟩
  unfold vleff vload ffLoop loadLoop
  rw [if_pos (memLegal_of hr), if_pos (memLegal_of hr), if_pos hlt, if_pos hlt, firstStop_elemCheck_some hat,
    firstStop_elemCheck_some ⟨hlo, by omega, hat.active, hat.raises, hat.earlier⟩]

/-- An access outside main memory: refused, unless the limit drawn was lower (R71, R284 (d)). -/
theorem vleff_refused (hs : s.sized) (hr : s.memReady) (hW : ∃ k, W = 2 ^ k)
    (hg : groupOk s.cfg vd (s.emul8 W) W = true) (hres : reserved = false) {i : Nat}
    (h : s.outsideAt .load W s.vlN (s.maskOn vm) addr i) :
    vleff s insn reserved vd W vm addr = .refused (.notMainMemory (addr i)) ∨
      (s.cfg.ffTrim = .mayTrim ∧ 0 < i ∧ ∃ n, 1 ≤ n ∧ s.vstartN ≤ n ∧ n ≤ i ∧
        ∃ t, vleff s insn reserved vd W vm addr = .next t ∧ FirstDone s t vd W n (s.maskOn vm) addr) := by
  have hlo := h.lower; have hup := h.upper
  have hlt : s.vstartN < s.vlN := by omega
  obtain ⟨h1, h2, h3, h4⟩ := ffStart_bounds hlt
  by_cases hi : ffStart s ≤ i
  · right
    refine ⟨?_, by omega, ffStart s, h1, h2, hi, vleff_limited hs hr hlt hW hg hres hi h.earlier⟩
    cases hf : s.cfg.ffTrim with
    | never => have := h4 hf; omega
    | mayTrim => rfl
  · left
    subst hres
    unfold vleff ffLoop
    rw [if_pos (memLegal_of hr), if_pos hlt, firstStop_elemCheck_device h (by omega)]
    cases i <;> rfl

/-! ### Traps of the mask and whole-register forms (R66, R331, R332, R357) -/

/-- A byte access is never misaligned (R65). -/
theorem ne_misaligned_of_byte {k : AccessKind} {body i : Nat} {on : Nat → Bool} {c : Cause} {tval : XWord}
    (h : s.raisesAt k 8 body on addr i c tval) : c ≠ misalignedCause k := by
  rintro rfl
  have h1 := checkAccess_eq_raises.mpr h.raises
  unfold checkAccess at h1
  rw [if_neg (by omega)] at h1
  cases hm : memAdmits s.cfg (addr i).toNat (8 / 8) k <;> simp only [hm] at h1
  · split_ifs at h1; cases h1
  all_goals injection h1 with h1; injection h1 with h1 h2; cases k <;> cases h1

theorem vstoreMask_trapped {i : Nat} {c : Cause} {tval : XWord} (hv : s.vsEnabled = true) (hi : s.vill = false)
    (hat : s.raisesAt .store 8 s.maskEvl (fun _ => true) (unitAddr s rs1 1) i c tval) :
    ∃ t, vstoreMask s insn vd rs1 = .next t ∧
      StoreTrapped s t vd 8 s.maskEvl (fun _ => true) (unitAddr s rs1 1) i c tval := by
  unfold vstoreMask
  rw [if_pos (by simp [hv, hi])]
  exact storeLoop_trapped hat

theorem vstoreWhole_trapped {n i : Nat} {c : Cause} {tval : XWord} (hv : s.vsEnabled = true) (ha : vd.toNat % n = 0)
    (hat : s.raisesAt .store 8 (n * s.cfg.vlen / 8) (fun _ => true) (unitAddr s rs1 1) i c tval) :
    ∃ t, vstoreWhole s insn vd rs1 n = .next t ∧
      StoreTrapped s t vd 8 (n * s.cfg.vlen / 8) (fun _ => true) (unitAddr s rs1 1) i c tval := by
  unfold vstoreWhole
  rw [if_pos (by simp [hv, ha])]
  exact storeLoop_trapped hat

/-- A base not aligned to the width makes the first element accessed misaligned (R66). -/
theorem raisesAt_misaligned_base {w body : Nat} (hw : isEncodedWidth w) (hm : s.cfg.misaligned = .trap)
    (hb : (s.readX rs1).toNat % (w / 8) ≠ 0) (hlt : s.vstartN < body) :
    s.raisesAt .load w body (fun _ => true) (unitAddr s rs1 (w / 8)) s.vstartN .loadAddressMisaligned
      (unitAddr s rs1 (w / 8) s.vstartN) := by
  refine ⟨le_rfl, hlt, rfl, checkAccess_eq_raises.mp ?_, fun j h1 h2 => by omega⟩
  unfold checkAccess
  rw [if_pos]
  · rfl
  · refine ⟨?_, hm⟩
    unfold unitAddr
    rw [truncX_toNat, BitVec.toNat_add, BitVec.toNat_ofNat]
    have hd : w / 8 ∣ 2 ^ s.cfg.xbits := by
      cases hx : s.cfg.xlen <;> simp only [Params.xbits, hx, XLen.bits] <;>
        (rcases hw with rfl | rfl | rfl | rfl <;> decide)
    have hd64 : w / 8 ∣ 2 ^ 64 := by rcases hw with rfl | rfl | rfl | rfl <;> decide
    rw [Nat.mod_mod_of_dvd _ hd, Nat.mod_mod_of_dvd _ hd64, Nat.add_mod, Nat.mod_mod_of_dvd _ hd64, Nat.mul_mod_left]
    simpa using hb

end Sys2Proof.Machine
end

