-- ==== Sys2Proof/Tests/Slice0.lean ====
section
/-! SUPPORT. Tests: the well-formedness checks refuse what they must, every constructor's word decodes to it, one or
two steps of every instruction, and for every obligation with hypotheses a state and operands that meet them.

Expected values come from spec/95_test_vectors.md (sections L2-CFG to L2-STORE; the name of a test ends in the table
and row, such as `wide22` for row 22 of L2-WIDE) or, where that file has no row for an instruction, from its rule by
hand. They are taken under the schedule the vectors print, `Schedule.quiet` (log 22). -/

set_option Elab.async false  -- one theorem at a time: each thread of its own would ask for more memory than there is

namespace Sys2Proof.Tests

open Sys2Proof.Machine Sys2Proof.Config

/-! ### Helpers -/

/-- The start state of the vectors: CFG-A, the quiet schedule, `pc = 0x100`. -/
def small (vtype : XWord) (vl : Nat) (xs : List (RegNo × XWord)) (vs : List (Nat × VReg)) (mem : Mem) : State :=
  { State.reset with
    cfg := { cfgA with schedule := .quiet }
    pc := 0x100
    vtype := vtype
    vl := BitVec.ofNat 64 vl
    x := xs.foldl (fun f p => f.set (regIdx p.1).val p.2 (regIdx p.1).isLt) State.reset.x
    v := vs.foldl (fun f p => setVreg f p.1 p.2) State.reset.v
    mem := mem }

/-- `mem_admits` answers `f` for every load or store that touches an address from `l` up. -/
def limit (s : State) (l : Nat) (f : Admit) : State :=
  { s with cfg := { s.cfg with
      regions := [⟨0, l, openMemory⟩]
      elsewhere := { openMemory with load := f, store := f } } }

/-- Memory image MEM-A of the vectors. -/
def memA : Mem := (List.range 64).map (fun k => (0x1000 + k, BitVec.ofNat 8 (0xA0 + k)))

/-- Memory image MEM-5 of the vectors. -/
def mem5 : Mem := (List.range 64).map (fun k => (0x1000 + k, 0x55#8))

/-- Decode a word and run it. -/
def run (w : InsnWord) (s : State) : Result := runDecoded s w (decodeWord w)

/-- Is the result a next state of which that holds? -/
def holds (r : Result) (f : State → Bool) : Bool :=
  match r with
  | .next t => f t
  | .fault _ => false
  | .refused _ => false

/-- Every word decodes to its instruction and the instruction encodes to the word. -/
def bothWays (l : List (InsnWord × Instr)) : Bool :=
  l.all (fun p => decide (decodeWord p.1 = .instr p.2) && decide (encode p.2 = p.1))

theorem exists_next {r : Result} (h : holds r (fun _ => true) = true) : ∃ t, r = .next t := by
  cases r with
  | next t => exact ⟨t, rfl⟩
  | fault _ => cases h
  | refused _ => cases h

theorem exists_next_of {r : Result} {f : State → Bool} (h : holds r f = true) : ∃ t, r = .next t ∧ f t = true := by
  cases r with
  | next t => exact ⟨t, rfl, h⟩
  | fault _ => cases h
  | refused _ => cases h

/-- `elementsOk` as a check. -/
def elementsFine (s : State) (k : AccessKind) (W body : Nat) (on : Nat → Bool) (addr : Nat → XWord) : Bool :=
  (List.range body).all (fun i =>
    decide (i < s.vstartN) || !on i || decide (checkAccess s.cfg k (addr i) (W / 8) = none))

theorem elementsFine.ok {s : State} {k : AccessKind} {W body : Nat} {on : Nat → Bool} {addr : Nat → XWord}
    (h : elementsFine s k W body on addr = true) : s.elementsOk k W body on addr := by
  intro i h1 h2 h3
  have h4 := List.all_eq_true.mp h i (List.mem_range.mpr h2)
  simp only [h3, Nat.not_lt.mpr h1, decide_false, Bool.false_or, Bool.not_true, decide_eq_true_eq] at h4
  exact checkAccess_eq_none.mp h4

/-- `raisesAt` as a check. -/
def raisesFine (s : State) (k : AccessKind) (W body : Nat) (on : Nat → Bool) (addr : Nat → XWord) (i : Nat) (c : Cause)
    (tval : XWord) : Bool :=
  decide (s.vstartN ≤ i) && decide (i < body) && on i &&
    decide (checkAccess s.cfg k (addr i) (W / 8) = some (.raises c tval)) && elementsFine s k W i on addr

theorem raisesFine.ok {s : State} {k : AccessKind} {W body : Nat} {on : Nat → Bool} {addr : Nat → XWord} {i : Nat}
    {c : Cause} {tval : XWord} (h : raisesFine s k W body on addr i c tval = true) :
    s.raisesAt k W body on addr i c tval := by
  simp only [raisesFine, Bool.and_eq_true, decide_eq_true_eq] at h
  exact ⟨h.1.1.1.1, h.1.1.1.2, h.1.1.2, checkAccess_eq_raises.mp h.1.2, elementsFine.ok h.2⟩

/-! ### Well-formedness: an ill-formed term for each check (R115, R290, R332) -/

theorem test_notV0_refuses : Instr.wellFormed (.vadcVvm 0 4 8) = false := by decide
theorem test_notV0_admits : Instr.wellFormed (.vadcVvm 1 4 8) = true := by decide
theorem test_maskedNotV0_refuses : Instr.wellFormed (.vle8V 0 11 false) = false := by decide
theorem test_maskedNotV0_admits : Instr.wellFormed (.vle8V 0 11 true) = true := by decide
theorem test_wholeAligned_refuses_load : Instr.wellFormed (.vl2re32V 9 11) = false := by decide
theorem test_wholeAligned_refuses_store : Instr.wellFormed (.vs4rV 6 11) = false := by decide
theorem test_wholeAligned_admits : Instr.wellFormed (.vs8rV 24 11) = true := by decide

/-! ### Decoding: the word of every constructor, as its rule writes it out -/

/-- The words the examples of the config rules write out, with the instructions they stand for. -/
theorem test_decode_config : bothWays [
    (0x0D0572D7, .vsetvli 5 10 0xD0),
    (0xCC0272D7, .vsetivli 5 4 0xC0),
    (0x80B572D7, .vsetvl 5 10 11)] = true := by decide +kernel

/-- The words the examples of the widening rules write out, with the instructions they stand for. -/
theorem test_decode_widening : bothWays [
    (0xC2432457, .vwadduVv 8 4 6 true),
    (0xC245E457, .vwadduVx 8 4 11 true),
    (0xC6432457, .vwaddVv 8 4 6 true),
    (0xC645E457, .vwaddVx 8 4 11 true),
    (0xCA432457, .vwsubuVv 8 4 6 true),
    (0xCA45E457, .vwsubuVx 8 4 11 true),
    (0xCE432457, .vwsubVv 8 4 6 true),
    (0xCE45E457, .vwsubVx 8 4 11 true),
    (0xD2432457, .vwadduWv 8 4 6 true),
    (0xD245E457, .vwadduWx 8 4 11 true),
    (0xD6432457, .vwaddWv 8 4 6 true),
    (0xD645E457, .vwaddWx 8 4 11 true),
    (0xDA432457, .vwsubuWv 8 4 6 true),
    (0xDA45E457, .vwsubuWx 8 4 11 true),
    (0xDE432457, .vwsubWv 8 4 6 true),
    (0xDE45E457, .vwsubWx 8 4 11 true)] = true := by decide +kernel

/-- The words the examples of the extension rules write out, with the instructions they stand for. -/
theorem test_decode_extension : bothWays [
    (0x4A412457, .vzextVf8 8 4 true),
    (0x48412457, .vzextVf8 8 4 false),
    (0x4A41A457, .vsextVf8 8 4 true),
    (0x4841A457, .vsextVf8 8 4 false),
    (0x4A422457, .vzextVf4 8 4 true),
    (0x48422457, .vzextVf4 8 4 false),
    (0x4A42A457, .vsextVf4 8 4 true),
    (0x4842A457, .vsextVf4 8 4 false),
    (0x4A432457, .vzextVf2 8 4 true),
    (0x48432457, .vzextVf2 8 4 false),
    (0x4A43A457, .vsextVf2 8 4 true),
    (0x4843A457, .vsextVf2 8 4 false)] = true := by decide +kernel

/-- The words the examples of the carry rules write out, with the instructions they stand for. -/
theorem test_decode_carry : bothWays [
    (0x40440257, .vadcVvm 4 4 8),
    (0x4045C257, .vadcVxm 4 4 11),
    (0x4042B257, .vadcVim 4 4 5),
    (0x444400D7, .vmadcVvm 1 4 8),
    (0x4445C0D7, .vmadcVxm 1 4 11),
    (0x4442B0D7, .vmadcVim 1 4 5),
    (0x464400D7, .vmadcVv 1 4 8),
    (0x4645C0D7, .vmadcVx 1 4 11),
    (0x4642B0D7, .vmadcVi 1 4 5),
    (0x48440257, .vsbcVvm 4 4 8),
    (0x4845C257, .vsbcVxm 4 4 11),
    (0x4C4400D7, .vmsbcVvm 1 4 8),
    (0x4C45C0D7, .vmsbcVxm 1 4 11),
    (0x4E4400D7, .vmsbcVv 1 4 8),
    (0x4E45C0D7, .vmsbcVx 1 4 11)] = true := by decide +kernel

/-- The words the examples of the mask logical rules write out, with the instructions they stand for. -/
theorem test_decode_mask_logical : bothWays [
    (0x661121D7, .vmandMm 3 1 2)] = true := by decide +kernel

/-- The words the examples of the loads rules write out, with the instructions they stand for. -/
theorem test_decode_loads : bothWays [
    (0x02058407, .vle8V 8 11 true),
    (0x00058407, .vle8V 8 11 false),
    (0x0205D407, .vle16V 8 11 true),
    (0x0005D407, .vle16V 8 11 false),
    (0x0205E407, .vle32V 8 11 true),
    (0x0005E407, .vle32V 8 11 false),
    (0x0205F407, .vle64V 8 11 true),
    (0x0005F407, .vle64V 8 11 false),
    (0x0AC58407, .vlse8V 8 11 12 true),
    (0x0AC5D407, .vlse16V 8 11 12 true),
    (0x0AC5E407, .vlse32V 8 11 12 true),
    (0x0AC5F407, .vlse64V 8 11 12 true),
    (0x03058407, .vle8ffV 8 11 true),
    (0x0305D407, .vle16ffV 8 11 true),
    (0x0305E407, .vle32ffV 8 11 true),
    (0x0305F407, .vle64ffV 8 11 true),
    (0x02B58007, .vlmV 0 11)] = true := by decide +kernel

/-- The words the examples of the indexed loads rules write out, with the instructions they stand for. -/
theorem test_decode_indexed_loads : bothWays [
    (0x06458407, .vluxei8V 8 11 4 true),
    (0x0645D407, .vluxei16V 8 11 4 true),
    (0x0645E407, .vluxei32V 8 11 4 true),
    (0x0645F407, .vluxei64V 8 11 4 true),
    (0x0E458407, .vloxei8V 8 11 4 true),
    (0x0E45D407, .vloxei16V 8 11 4 true),
    (0x0E45E407, .vloxei32V 8 11 4 true),
    (0x0E45F407, .vloxei64V 8 11 4 true)] = true := by decide +kernel

/-- The words the examples of the whole loads rules write out, with the instructions they stand for. -/
theorem test_decode_whole_loads : bothWays [
    (0x02858407, .vl1re8V 8 11),
    (0x0285D407, .vl1re16V 8 11),
    (0x0285E407, .vl1re32V 8 11),
    (0x0285F407, .vl1re64V 8 11),
    (0x22858407, .vl2re8V 8 11),
    (0x2285D407, .vl2re16V 8 11),
    (0x2285E407, .vl2re32V 8 11),
    (0x2285F407, .vl2re64V 8 11),
    (0x62858407, .vl4re8V 8 11),
    (0x6285D407, .vl4re16V 8 11),
    (0x6285E407, .vl4re32V 8 11),
    (0x6285F407, .vl4re64V 8 11),
    (0xE2858407, .vl8re8V 8 11),
    (0xE285D407, .vl8re16V 8 11),
    (0xE285E407, .vl8re32V 8 11),
    (0xE285F407, .vl8re64V 8 11)] = true := by decide +kernel

/-- The words the examples of the stores rules write out, with the instructions they stand for. -/
theorem test_decode_stores : bothWays [
    (0x02058427, .vse8V 8 11 true),
    (0x00058427, .vse8V 8 11 false),
    (0x0205D427, .vse16V 8 11 true),
    (0x0005D427, .vse16V 8 11 false),
    (0x0205E427, .vse32V 8 11 true),
    (0x0005E427, .vse32V 8 11 false),
    (0x0205F427, .vse64V 8 11 true),
    (0x0005F427, .vse64V 8 11 false),
    (0x0AC58427, .vsse8V 8 11 12 true),
    (0x0AC5D427, .vsse16V 8 11 12 true),
    (0x0AC5E427, .vsse32V 8 11 12 true),
    (0x0AC5F427, .vsse64V 8 11 12 true),
    (0x06458427, .vsuxei8V 8 11 4 true),
    (0x0645D427, .vsuxei16V 8 11 4 true),
    (0x0645E427, .vsuxei32V 8 11 4 true),
    (0x0645F427, .vsuxei64V 8 11 4 true),
    (0x0E458427, .vsoxei8V 8 11 4 true),
    (0x0E45D427, .vsoxei16V 8 11 4 true),
    (0x0E45E427, .vsoxei32V 8 11 4 true),
    (0x0E45F427, .vsoxei64V 8 11 4 true),
    (0x02B58027, .vsmV 0 11),
    (0x02858427, .vs1rV 8 11),
    (0x22858427, .vs2rV 8 11),
    (0x62858427, .vs4rV 8 11),
    (0xE2858427, .vs8rV 8 11)] = true := by decide +kernel

/-- Words the table reserves or leaves out (R115, R119; L2-EXT rows 14 and 15, L2-LOAD-U rows 13 and 14, L2-STORE row
18): a sub-opcode, `mew`, `lumop`, `sumop`; then `vadd.vv` and a segment load, out of scope; then `addi`. -/
theorem test_decode_others :
    [0x4A40A457#32, 0x12058407#32, 0x02158407#32, 0x03058427#32].all (fun w => decide (decodeWord w = .reserved)) &&
      [0x02860257#32, 0x22058407#32].all (fun w => decide (decodeWord w = .notInScope)) &&
      decide (decodeWord 0xFFF50513#32 = .notVector) = true := by decide +kernel

/-! ### Steps -/

theorem test_vsetvli_cfg1 : holds (run 0x0D0572D7#32 (small 0x80000000 0 [(10, 0x3)] [] []))
    (fun t => decide (t.vl = 3#64) && decide (t.readX 5 = 3#64)) = true := by
  decide +kernel
theorem test_vsetivli_cfg17 : holds (run 0xC18FF057#32 (small 0x80000000 0 [] [] []))
    (fun t => decide (t.vtype = 0x18#64) && decide (t.readX 0 = 0#64)) = true := by
  decide +kernel
theorem test_vsetvl_cfg19 : holds (run 0x80B572D7#32 (small 0x80000000 0 [(10, 0x3), (11, 0xC9)] [] []))
    (fun t => decide (t.vtype = 0xC9#64) && decide (t.readX 5 = 3#64)) = true := by
  decide +kernel
theorem test_vsetvli_cfg9 : holds (run 0x0D007057#32 (small 0xC0 10 [] [] []))
    (fun t => decide (t.vl = 0#64) && decide (t.vtype = 0x80000000#64)) = true := by
  decide +kernel
theorem test_vwadduVv_wide1 : holds (run 0xC2432457#32 (small 0x0 4 [] [(8, 0xEEEEEEEEEEEEEEEEEEEEEEEEEEEEEEEE), (9, 0xEEEEEEEEEEEEEEEEEEEEEEEEEEEEEEEE), (4, 0x7F0180FF), (6, 0x800280FF)] []))
    (fun t => decide (vreg t.v 8 = 0xEEEEEEEEEEEEEEEE00FF0003010001FE#65536)) = true := by
  decide +kernel
theorem test_vwaddVv_wide2 : holds (run 0xC6432457#32 (small 0x0 4 [] [(8, 0xEEEEEEEEEEEEEEEEEEEEEEEEEEEEEEEE), (9, 0xEEEEEEEEEEEEEEEEEEEEEEEEEEEEEEEE), (4, 0x7F0180FF), (6, 0x800280FF)] []))
    (fun t => decide (vreg t.v 8 = 0xEEEEEEEEEEEEEEEEFFFF0003FF00FFFE#65536)) = true := by
  decide +kernel
theorem test_vwsubuVv_wide3 : holds (run 0xCA432457#32 (small 0x0 4 [] [(8, 0xEEEEEEEEEEEEEEEEEEEEEEEEEEEEEEEE), (9, 0xEEEEEEEEEEEEEEEEEEEEEEEEEEEEEEEE), (4, 0x7F0180FF), (6, 0x800280FF)] []))
    (fun t => decide (vreg t.v 8 = 0xEEEEEEEEEEEEEEEEFFFFFFFF00000000#65536)) = true := by
  decide +kernel
theorem test_vwsubVv_wide4 : holds (run 0xCE432457#32 (small 0x0 4 [] [(8, 0xEEEEEEEEEEEEEEEEEEEEEEEEEEEEEEEE), (9, 0xEEEEEEEEEEEEEEEEEEEEEEEEEEEEEEEE), (4, 0x7F0180FF), (6, 0x800280FF)] []))
    (fun t => decide (vreg t.v 8 = 0xEEEEEEEEEEEEEEEE00FFFFFF00000000#65536)) = true := by
  decide +kernel
theorem test_vwadduVx_wide5 : holds (run 0xC2456457#32 (small 0x0 4 [(10, 0x1FF)] [(8, 0xEEEEEEEEEEEEEEEEEEEEEEEEEEEEEEEE), (9, 0xEEEEEEEEEEEEEEEEEEEEEEEEEEEEEEEE), (4, 0x7F0180FF), (6, 0x800280FF)] []))
    (fun t => decide (vreg t.v 8 = 0xEEEEEEEEEEEEEEEE017E0100017F01FE#65536)) = true := by
  decide +kernel
theorem test_vwaddVx_wide6 : holds (run 0xC6456457#32 (small 0x0 4 [(10, 0x1FF)] [(8, 0xEEEEEEEEEEEEEEEEEEEEEEEEEEEEEEEE), (9, 0xEEEEEEEEEEEEEEEEEEEEEEEEEEEEEEEE), (4, 0x7F0180FF), (6, 0x800280FF)] []))
    (fun t => decide (vreg t.v 8 = 0xEEEEEEEEEEEEEEEE007E0000FF7FFFFE#65536)) = true := by
  decide +kernel
theorem test_vwsubuVx_wide7 : holds (run 0xCA456457#32 (small 0x0 4 [(10, 0x1FF)] [(8, 0xEEEEEEEEEEEEEEEEEEEEEEEEEEEEEEEE), (9, 0xEEEEEEEEEEEEEEEEEEEEEEEEEEEEEEEE), (4, 0x7F0180FF), (6, 0x800280FF)] []))
    (fun t => decide (vreg t.v 8 = 0xEEEEEEEEEEEEEEEEFF80FF02FF810000#65536)) = true := by
  decide +kernel
theorem test_vwsubVx_wide8 : holds (run 0xCE456457#32 (small 0x0 4 [(10, 0x80)] [(8, 0xEEEEEEEEEEEEEEEEEEEEEEEEEEEEEEEE), (9, 0xEEEEEEEEEEEEEEEEEEEEEEEEEEEEEEEE), (4, 0x7F0180FF), (6, 0x800280FF)] []))
    (fun t => decide (vreg t.v 8 = 0xEEEEEEEEEEEEEEEE00FF00810000007F#65536)) = true := by
  decide +kernel
theorem test_vwadduWv_wide9 : holds (run 0xD2432457#32 (small 0x0 4 [] [(8, 0xEEEEEEEEEEEEEEEEEEEEEEEEEEEEEEEE), (9, 0xEEEEEEEEEEEEEEEEEEEEEEEEEEEEEEEE), (4, 0x7FFF80000000FFFF), (6, 0x800280FF)] []))
    (fun t => decide (vreg t.v 8 = 0xEEEEEEEEEEEEEEEE807F8002008000FE#65536)) = true := by
  decide +kernel
theorem test_vwaddWv_wide10 : holds (run 0xD6432457#32 (small 0x0 4 [] [(8, 0xEEEEEEEEEEEEEEEEEEEEEEEEEEEEEEEE), (9, 0xEEEEEEEEEEEEEEEEEEEEEEEEEEEEEEEE), (4, 0x7FFF80000000FFFF), (6, 0x800280FF)] []))
    (fun t => decide (vreg t.v 8 = 0xEEEEEEEEEEEEEEEE7F7F8002FF80FFFE#65536)) = true := by
  decide +kernel
theorem test_vwsubuWv_wide11 : holds (run 0xDA432457#32 (small 0x0 4 [] [(8, 0xEEEEEEEEEEEEEEEEEEEEEEEEEEEEEEEE), (9, 0xEEEEEEEEEEEEEEEEEEEEEEEEEEEEEEEE), (4, 0x7FFF80000000FFFF), (6, 0x800280FF)] []))
    (fun t => decide (vreg t.v 8 = 0xEEEEEEEEEEEEEEEE7F7F7FFEFF80FF00#65536)) = true := by
  decide +kernel
theorem test_vwsubWv_wide12 : holds (run 0xDE432457#32 (small 0x0 4 [] [(8, 0xEEEEEEEEEEEEEEEEEEEEEEEEEEEEEEEE), (9, 0xEEEEEEEEEEEEEEEEEEEEEEEEEEEEEEEE), (4, 0x7FFF80000000FFFF), (6, 0x800280FF)] []))
    (fun t => decide (vreg t.v 8 = 0xEEEEEEEEEEEEEEEE807F7FFE00800000#65536)) = true := by
  decide +kernel
theorem test_vwadduWx_wide13 : holds (run 0xD2456457#32 (small 0x0 4 [(10, 0xFF)] [(8, 0xEEEEEEEEEEEEEEEEEEEEEEEEEEEEEEEE), (9, 0xEEEEEEEEEEEEEEEEEEEEEEEEEEEEEEEE), (4, 0x7FFF80000000FFFF), (6, 0x800280FF)] []))
    (fun t => decide (vreg t.v 8 = 0xEEEEEEEEEEEEEEEE80FE80FF00FF00FE#65536)) = true := by
  decide +kernel
theorem test_vwaddWx_wide14 : holds (run 0xD6456457#32 (small 0x0 4 [(10, 0xFF)] [(8, 0xEEEEEEEEEEEEEEEEEEEEEEEEEEEEEEEE), (9, 0xEEEEEEEEEEEEEEEEEEEEEEEEEEEEEEEE), (4, 0x7FFF80000000FFFF), (6, 0x800280FF)] []))
    (fun t => decide (vreg t.v 8 = 0xEEEEEEEEEEEEEEEE7FFE7FFFFFFFFFFE#65536)) = true := by
  decide +kernel
theorem test_vwsubuWx_wide15 : holds (run 0xDA456457#32 (small 0x0 4 [(10, 0xFF)] [(8, 0xEEEEEEEEEEEEEEEEEEEEEEEEEEEEEEEE), (9, 0xEEEEEEEEEEEEEEEEEEEEEEEEEEEEEEEE), (4, 0x7FFF80000000FFFF), (6, 0x800280FF)] []))
    (fun t => decide (vreg t.v 8 = 0xEEEEEEEEEEEEEEEE7F007F01FF01FF00#65536)) = true := by
  decide +kernel
theorem test_vwsubWx_wide16 : holds (run 0xDE456457#32 (small 0x0 4 [(10, 0xFF)] [(8, 0xEEEEEEEEEEEEEEEEEEEEEEEEEEEEEEEE), (9, 0xEEEEEEEEEEEEEEEEEEEEEEEEEEEEEEEE), (4, 0x7FFF80000000FFFF), (6, 0x800280FF)] []))
    (fun t => decide (vreg t.v 8 = 0xEEEEEEEEEEEEEEEE8000800100010000#65536)) = true := by
  decide +kernel
theorem test_vwaddVx_wide30 : holds (run 0xC6456457#32 (small 0x10 2 [(10, 0x80000000)] [(8, 0xEEEEEEEEEEEEEEEEEEEEEEEEEEEEEEEE), (9, 0xEEEEEEEEEEEEEEEEEEEEEEEEEEEEEEEE), (4, 0x1FFFFFFFF)] []))
    (fun t => decide (vreg t.v 8 = 0xFFFFFFFF80000001FFFFFFFF7FFFFFFF#65536)) = true := by
  decide +kernel
theorem test_vwadduVv_wide22 : holds (run 0xC2832457#32 (small 0x0 4 [] [(8, 0xEEEEEEEEEEEEEEEEEEEEEEEEEEEEEEEE), (9, 0xEEEEEEEEEEEEEEEEEEEEEEEEEEEEEEEE)] []))
    (fun t => decide (t.report = some ⟨.illegalInstruction, 0xC2832457, 0x100⟩) && decide (vreg t.v 8 = 0xEEEEEEEEEEEEEEEEEEEEEEEEEEEEEEEE#65536)) = true := by
  decide +kernel
theorem test_vzextVf8_ext5 : holds (run 0x4A412457#32 (small 0x18 2 [] [(8, 0xEEEEEEEEEEEEEEEEEEEEEEEEEEEEEEEE), (9, 0xEEEEEEEEEEEEEEEEEEEEEEEEEEEEEEEE), (4, 0x7FFF)] []))
    (fun t => decide (vreg t.v 8 = 0x7F00000000000000FF#65536)) = true := by
  decide +kernel
theorem test_vsextVf8_ext6 : holds (run 0x4A41A457#32 (small 0x18 2 [] [(8, 0xEEEEEEEEEEEEEEEEEEEEEEEEEEEEEEEE), (9, 0xEEEEEEEEEEEEEEEEEEEEEEEEEEEEEEEE), (4, 0x7FFF)] []))
    (fun t => decide (vreg t.v 8 = 0x7FFFFFFFFFFFFFFFFF#65536)) = true := by
  decide +kernel
theorem test_vzextVf4_ext3 : holds (run 0x4A422457#32 (small 0x10 4 [] [(8, 0xEEEEEEEEEEEEEEEEEEEEEEEEEEEEEEEE), (9, 0xEEEEEEEEEEEEEEEEEEEEEEEEEEEEEEEE), (4, 0x7F0180FF)] []))
    (fun t => decide (vreg t.v 8 = 0x7F0000000100000080000000FF#65536)) = true := by
  decide +kernel
theorem test_vsextVf4_ext4 : holds (run 0x4A42A457#32 (small 0x10 4 [] [(8, 0xEEEEEEEEEEEEEEEEEEEEEEEEEEEEEEEE), (9, 0xEEEEEEEEEEEEEEEEEEEEEEEEEEEEEEEE), (4, 0x7F0180FF)] []))
    (fun t => decide (vreg t.v 8 = 0x7F00000001FFFFFF80FFFFFFFF#65536)) = true := by
  decide +kernel
theorem test_vzextVf2_ext1 : holds (run 0x4A432457#32 (small 0x8 4 [] [(8, 0xEEEEEEEEEEEEEEEEEEEEEEEEEEEEEEEE), (9, 0xEEEEEEEEEEEEEEEEEEEEEEEEEEEEEEEE), (4, 0x7F0180FF)] []))
    (fun t => decide (vreg t.v 8 = 0xEEEEEEEEEEEEEEEE007F0001008000FF#65536)) = true := by
  decide +kernel
theorem test_vsextVf2_ext8 : holds (run 0x4843A457#32 (small 0x8 4 [] [(8, 0xEEEEEEEEEEEEEEEEEEEEEEEEEEEEEEEE), (9, 0xEEEEEEEEEEEEEEEEEEEEEEEEEEEEEEEE), (4, 0x7F0180FF), (0, 0xA)] []))
    (fun t => decide (vreg t.v 8 = 0xEEEEEEEEEEEEEEEE007FEEEEFF80EEEE#65536)) = true := by
  decide +kernel
theorem test_vzextVf2_ext19 : holds (run 0x4A932457#32 (small 0x9 4 [] [(8, 0x0), (9, 0x4030201)] []))
    (fun t => decide (vreg t.v 8 = 0x4000300020001#65536) && decide (vreg t.v 9 = 0x4030201#65536)) = true := by
  decide +kernel
theorem test_vadcVvm_car1 : holds (run 0x40860257#32 (small 0x0 4 [] [(0, 0x5), (4, 0xEEEEEEEEEEEEEEEEEEEEEEEEEEEEEEEE), (8, 0x7F0180FF), (12, 0x80FE8000)] []))
    (fun t => decide (vreg t.v 4 = 0xEEEEEEEEEEEEEEEEEEEEEEEEFF000000#65536)) = true := by
  decide +kernel
theorem test_vadcVxm_car7 : holds (run 0x40854257#32 (small 0x0 4 [(10, 0x1FF)] [(0, 0x3), (4, 0xEEEEEEEEEEEEEEEEEEEEEEEEEEEEEEEE), (8, 0x7F0180FF), (12, 0x80FE8000)] []))
    (fun t => decide (vreg t.v 4 = 0xEEEEEEEEEEEEEEEEEEEEEEEE7E0080FF#65536)) = true := by
  decide +kernel
theorem test_vadcVim_car13 : holds (run 0x408FB257#32 (small 0x0 4 [] [(0, 0x8), (4, 0xEEEEEEEEEEEEEEEEEEEEEEEEEEEEEEEE), (8, 0x7F0180FF), (12, 0x80FE8000)] []))
    (fun t => decide (vreg t.v 4 = 0xEEEEEEEEEEEEEEEEEEEEEEEE7F007FFE#65536)) = true := by
  decide +kernel
theorem test_vmadcVvm_car2 : holds (run 0x44860257#32 (small 0x0 4 [] [(0, 0x5), (4, 0xEEEEEEEEEEEEEEEEEEEEEEEEEEEEEEEE), (8, 0x7F0180FF), (12, 0x80FE8000)] []))
    (fun t => decide (vreg t.v 4 = 0xEEEEEEEEEEEEEEEEEEEEEEEEEEEEEEE7#65536)) = true := by
  decide +kernel
theorem test_vmadcVxm_car8 : holds (run 0x44854257#32 (small 0x0 4 [(10, 0x1FF)] [(0, 0x3), (4, 0xEEEEEEEEEEEEEEEEEEEEEEEEEEEEEEEE), (8, 0x7F0180FF), (12, 0x80FE8000)] []))
    (fun t => decide (vreg t.v 4 = 0xEEEEEEEEEEEEEEEEEEEEEEEEEEEEEEEF#65536)) = true := by
  decide +kernel
theorem test_vmadcVim_car14 : holds (run 0x448FB257#32 (small 0x0 4 [] [(0, 0x8), (4, 0xEEEEEEEEEEEEEEEEEEEEEEEEEEEEEEEE), (8, 0x7F0180FF), (12, 0x80FE8000)] []))
    (fun t => decide (vreg t.v 4 = 0xEEEEEEEEEEEEEEEEEEEEEEEEEEEEEEEF#65536)) = true := by
  decide +kernel
theorem test_vmadcVv_car3 : holds (run 0x46860257#32 (small 0x0 4 [] [(0, 0x5), (4, 0xEEEEEEEEEEEEEEEEEEEEEEEEEEEEEEEE), (8, 0x7F0180FF), (12, 0x80FE8000)] []))
    (fun t => decide (vreg t.v 4 = 0xEEEEEEEEEEEEEEEEEEEEEEEEEEEEEEE2#65536)) = true := by
  decide +kernel
theorem test_vmadcVx_car9 : holds (run 0x46854257#32 (small 0x0 4 [(10, 0x1FF)] [(0, 0x3), (4, 0xEEEEEEEEEEEEEEEEEEEEEEEEEEEEEEEE), (8, 0x7F0180FF), (12, 0x80FE8000)] []))
    (fun t => decide (vreg t.v 4 = 0xEEEEEEEEEEEEEEEEEEEEEEEEEEEEEEEF#65536)) = true := by
  decide +kernel
theorem test_vmadcVi_car15 : holds (run 0x468FB257#32 (small 0x0 4 [] [(0, 0x5), (4, 0xEEEEEEEEEEEEEEEEEEEEEEEEEEEEEEEE), (8, 0x7F0180FF), (12, 0x80FE8000)] []))
    (fun t => decide (vreg t.v 4 = 0xEEEEEEEEEEEEEEEEEEEEEEEEEEEEEEEF#65536)) = true := by
  decide +kernel
theorem test_vsbcVvm_car4 : holds (run 0x48860257#32 (small 0x0 4 [] [(0, 0x5), (4, 0xEEEEEEEEEEEEEEEEEEEEEEEEEEEEEEEE), (8, 0x7F0180FF), (12, 0x80FE8000)] []))
    (fun t => decide (vreg t.v 4 = 0xEEEEEEEEEEEEEEEEEEEEEEEEFF0200FE#65536)) = true := by
  decide +kernel
theorem test_vsbcVxm_car10 : holds (run 0x48854257#32 (small 0x0 4 [(10, 0x1FF)] [(0, 0x3), (4, 0xEEEEEEEEEEEEEEEEEEEEEEEEEEEEEEEE), (8, 0x7F0180FF), (12, 0x80FE8000)] []))
    (fun t => decide (vreg t.v 4 = 0xEEEEEEEEEEEEEEEEEEEEEEEE800280FF#65536)) = true := by
  decide +kernel
theorem test_vmsbcVvm_car5 : holds (run 0x4C860257#32 (small 0x0 4 [] [(0, 0x5), (4, 0xEEEEEEEEEEEEEEEEEEEEEEEEEEEEEEEE), (8, 0x7F0180FF), (12, 0x80FE8000)] []))
    (fun t => decide (vreg t.v 4 = 0xEEEEEEEEEEEEEEEEEEEEEEEEEEEEEEEC#65536)) = true := by
  decide +kernel
theorem test_vmsbcVxm_car11 : holds (run 0x4C854257#32 (small 0x0 4 [(10, 0x1FF)] [(0, 0x3), (4, 0xEEEEEEEEEEEEEEEEEEEEEEEEEEEEEEEE), (8, 0x7F0180FF), (12, 0x80FE8000)] []))
    (fun t => decide (vreg t.v 4 = 0xEEEEEEEEEEEEEEEEEEEEEEEEEEEEEEEF#65536)) = true := by
  decide +kernel
theorem test_vmsbcVv_car6 : holds (run 0x4E860257#32 (small 0x0 4 [] [(0, 0x5), (4, 0xEEEEEEEEEEEEEEEEEEEEEEEEEEEEEEEE), (8, 0x7F0180FF), (12, 0x80FE8000)] []))
    (fun t => decide (vreg t.v 4 = 0xEEEEEEEEEEEEEEEEEEEEEEEEEEEEEEEC#65536)) = true := by
  decide +kernel
theorem test_vmsbcVx_car12 : holds (run 0x4E854257#32 (small 0x0 4 [(10, 0x1FF)] [(0, 0x3), (4, 0xEEEEEEEEEEEEEEEEEEEEEEEEEEEEEEEE), (8, 0x7F0180FF), (12, 0x80FE8000)] []))
    (fun t => decide (vreg t.v 4 = 0xEEEEEEEEEEEEEEEEEEEEEEEEEEEEEEEE#65536)) = true := by
  decide +kernel
theorem test_vmsbcVvm_car22 : holds (run 0x4C860257#32 (small 0x0 1 [] [(0, 0x1), (4, 0xEEEEEEEEEEEEEEEEEEEEEEEEEEEEEEEE), (8, 0xFF), (12, 0xFF)] []))
    (fun t => decide (vreg t.v 4 = 0xEEEEEEEEEEEEEEEEEEEEEEEEEEEEEEEF#65536)) = true := by
  decide +kernel
theorem test_vmadcVvm_car26 : holds (run 0x44860057#32 (small 0x0 4 [] [(0, 0x5), (4, 0xEEEEEEEEEEEEEEEEEEEEEEEEEEEEEEEE), (8, 0x7F0180FF), (12, 0x80FE8000)] []))
    (fun t => decide (vreg t.v 0 = 0x7#65536)) = true := by
  decide +kernel
theorem test_vadcVvm_car31 : holds (run 0x40860057#32 (small 0x0 4 [] [(8, 0xEEEEEEEEEEEEEEEEEEEEEEEEEEEEEEEE), (9, 0xEEEEEEEEEEEEEEEEEEEEEEEEEEEEEEEE)] []))
    (fun t => decide (t.report = some ⟨.illegalInstruction, 0x40860057, 0x100⟩) && decide (vreg t.v 8 = 0xEEEEEEEEEEEEEEEEEEEEEEEEEEEEEEEE#65536)) = true := by
  decide +kernel
theorem test_vmandMm_mask1 : holds (run 0x6620A1D7#32 (small 0x0 8 [] [(1, 0xAACC), (2, 0xFFAA), (3, 0xEEEEEEEEEEEEEEEEEEEEEEEEEEEEEEEE)] []))
    (fun t => decide (vreg t.v 3 = 0xEEEEEEEEEEEEEEEEEEEEEEEEEEEEEE88#65536)) = true := by
  decide +kernel
theorem test_vmandMm_mask3 : holds (run 0x6610A057#32 ({ (small 0x0 8 [] [(0, 0xEEEEEEEEEEEEEEEEEEEEEEEEEEEEEEEE), (1, 0xA5C3)] []) with vstart := 3 }))
    (fun t => decide (vreg t.v 0 = 0xEEEEEEEEEEEEEEEEEEEEEEEEEEEEEEC6#65536)) = true := by
  decide +kernel
theorem test_vle8V_lu5 : holds (run 0x00058407#32 (small 0x0 4 [(11, 0x1000)] [(8, 0xEEEEEEEEEEEEEEEEEEEEEEEEEEEEEEEE), (9, 0xEEEEEEEEEEEEEEEEEEEEEEEEEEEEEEEE), (0, 0xA)] memA))
    (fun t => decide (vreg t.v 8 = 0xEEEEEEEEEEEEEEEEEEEEEEEEA3EEA1EE#65536)) = true := by
  decide +kernel
theorem test_vle16V_lu3 : holds (run 0x0205D407#32 (small 0x0 12 [(11, 0x1000)] [(8, 0xEEEEEEEEEEEEEEEEEEEEEEEEEEEEEEEE), (9, 0xEEEEEEEEEEEEEEEEEEEEEEEEEEEEEEEE)] memA))
    (fun t => decide (vreg t.v 8 = 0xAFAEADACABAAA9A8A7A6A5A4A3A2A1A0#65536) && decide (vreg t.v 9 = 0xEEEEEEEEEEEEEEEEB7B6B5B4B3B2B1B0#65536)) = true := by
  decide +kernel
theorem test_vle32V_lu2 : holds (run 0x0205E407#32 (small 0x10 3 [(11, 0x1000)] [(8, 0xEEEEEEEEEEEEEEEEEEEEEEEEEEEEEEEE), (9, 0xEEEEEEEEEEEEEEEEEEEEEEEEEEEEEEEE)] memA))
    (fun t => decide (vreg t.v 8 = 0xEEEEEEEEABAAA9A8A7A6A5A4A3A2A1A0#65536)) = true := by
  decide +kernel
theorem test_vle64V_lu4 : holds (run 0x0205F407#32 (small 0x17 2 [(11, 0x1008)] [(8, 0xEEEEEEEEEEEEEEEEEEEEEEEEEEEEEEEE), (9, 0xEEEEEEEEEEEEEEEEEEEEEEEEEEEEEEEE)] memA))
    (fun t => decide (vreg t.v 8 = 0xB7B6B5B4B3B2B1B0AFAEADACABAAA9A8#65536)) = true := by
  decide +kernel
theorem test_vlse8V_ls1 : holds (run 0x0AC58407#32 (small 0x0 4 [(11, 0x1000), (12, 0x3)] [(8, 0xEEEEEEEEEEEEEEEEEEEEEEEEEEEEEEEE), (9, 0xEEEEEEEEEEEEEEEEEEEEEEEEEEEEEEEE)] memA))
    (fun t => decide (vreg t.v 8 = 0xEEEEEEEEEEEEEEEEEEEEEEEEA9A6A3A0#65536)) = true := by
  decide +kernel
theorem test_vlse16V_ls2 : holds (run 0x0AC5D407#32 (small 0x8 4 [(11, 0x1010), (12, 0xFFFFFFFC)] [(8, 0xEEEEEEEEEEEEEEEEEEEEEEEEEEEEEEEE), (9, 0xEEEEEEEEEEEEEEEEEEEEEEEEEEEEEEEE)] memA))
    (fun t => decide (vreg t.v 8 = 0xEEEEEEEEEEEEEEEEA5A4A9A8ADACB1B0#65536)) = true := by
  decide +kernel
theorem test_vlse32V_ls3 : holds (run 0x0A05E407#32 (small 0x10 4 [(11, 0x1004)] [(8, 0xEEEEEEEEEEEEEEEEEEEEEEEEEEEEEEEE), (9, 0xEEEEEEEEEEEEEEEEEEEEEEEEEEEEEEEE)] memA))
    (fun t => decide (vreg t.v 8 = 0xA7A6A5A4A7A6A5A4A7A6A5A4A7A6A5A4#65536)) = true := by
  decide +kernel
theorem test_vlse64V_lse64 : holds (run 0x0AC5F407#32 (small 0x18 2 [(11, 0x1008), (12, 0xFFFFFFF8)] [(8, 0xEEEEEEEEEEEEEEEEEEEEEEEEEEEEEEEE), (9, 0xEEEEEEEEEEEEEEEEEEEEEEEEEEEEEEEE)] memA))
    (fun t => decide (vreg t.v 8 = 0xA7A6A5A4A3A2A1A0AFAEADACABAAA9A8#65536)) = true := by
  decide +kernel
theorem test_vluxei8V_lx3 : holds (run 0x06458407#32 (small 0x0 4 [(11, 0xF10)] [(8, 0xEEEEEEEEEEEEEEEEEEEEEEEEEEEEEEEE), (9, 0xEEEEEEEEEEEEEEEEEEEEEEEEEEEEEEEE), (4, 0xF2F1F0FF)] memA))
    (fun t => decide (vreg t.v 8 = 0xEEEEEEEEEEEEEEEEEEEEEEEEA2A1A0AF#65536)) = true := by
  decide +kernel
theorem test_vluxei16V_lx_u16 : holds (run 0x0645D407#32 (small 0x0 2 [(11, 0x1000)] [(8, 0xEEEEEEEEEEEEEEEEEEEEEEEEEEEEEEEE), (9, 0xEEEEEEEEEEEEEEEEEEEEEEEEEEEEEEEE), (4, 0x20009)] memA))
    (fun t => decide (vreg t.v 8 = 0xEEEEEEEEEEEEEEEEEEEEEEEEEEEEA2A9#65536)) = true := by
  decide +kernel
theorem test_vluxei32V_lx4 : holds (run 0x0645E407#32 (small 0x0 4 [(11, 0x1010)] [(8, 0xEEEEEEEEEEEEEEEEEEEEEEEEEEEEEEEE), (9, 0xEEEEEEEEEEEEEEEEEEEEEEEEEEEEEEEE), (4, 0xFFFFFFFF0000000400000000FFFFFFF0)] memA))
    (fun t => decide (vreg t.v 8 = 0xEEEEEEEEEEEEEEEEEEEEEEEEAFB4B0A0#65536)) = true := by
  decide +kernel
theorem test_vluxei64V_lx_u64 : holds (run 0x0645F407#32 (small 0x18 2 [(11, 0x1000)] [(8, 0xEEEEEEEEEEEEEEEEEEEEEEEEEEEEEEEE), (9, 0xEEEEEEEEEEEEEEEEEEEEEEEEEEEEEEEE), (4, 0x8)] memA))
    (fun t => decide (vreg t.v 8 = 0xA7A6A5A4A3A2A1A0AFAEADACABAAA9A8#65536)) = true := by
  decide +kernel
theorem test_vloxei8V_lx_o8 : holds (run 0x0E458407#32 (small 0x8 2 [(11, 0x1000)] [(8, 0xEEEEEEEEEEEEEEEEEEEEEEEEEEEEEEEE), (9, 0xEEEEEEEEEEEEEEEEEEEEEEEEEEEEEEEE), (4, 0x6)] memA))
    (fun t => decide (vreg t.v 8 = 0xEEEEEEEEEEEEEEEEEEEEEEEEA1A0A7A6#65536)) = true := by
  decide +kernel
theorem test_vloxei16V_lx2 : holds (run 0x0E45D407#32 (small 0x0 4 [(11, 0x1000)] [(8, 0xEEEEEEEEEEEEEEEEEEEEEEEEEEEEEEEE), (9, 0xEEEEEEEEEEEEEEEEEEEEEEEEEEEEEEEE), (4, 0x100100000001F)] memA))
    (fun t => decide (vreg t.v 8 = 0xEEEEEEEEEEEEEEEEEEEEEEEEA1B0A0BF#65536)) = true := by
  decide +kernel
theorem test_vloxei32V_lx_o32 : holds (run 0x0E45E407#32 (small 0x10 2 [(11, 0x1000)] [(8, 0xEEEEEEEEEEEEEEEEEEEEEEEEEEEEEEEE), (9, 0xEEEEEEEEEEEEEEEEEEEEEEEEEEEEEEEE), (4, 0x4)] memA))
    (fun t => decide (vreg t.v 8 = 0xEEEEEEEEEEEEEEEEA3A2A1A0A7A6A5A4#65536)) = true := by
  decide +kernel
theorem test_vloxei64V_lx_o64 : holds (run 0x0E45F407#32 (small 0x18 2 [(11, 0x1000)] [(8, 0xEEEEEEEEEEEEEEEEEEEEEEEEEEEEEEEE), (9, 0xEEEEEEEEEEEEEEEEEEEEEEEEEEEEEEEE), (4, 0x10)] memA))
    (fun t => decide (vreg t.v 8 = 0xA7A6A5A4A3A2A1A0B7B6B5B4B3B2B1B0#65536)) = true := by
  decide +kernel
theorem test_vle8V_lf1 : holds (run 0x02058407#32 (limit (small 0x0 4 [(11, 0x101E)] [(8, 0xEEEEEEEEEEEEEEEEEEEEEEEEEEEEEEEE), (9, 0xEEEEEEEEEEEEEEEEEEEEEEEEEEEEEEEE)] memA) 0x1020 .accessFault))
    (fun t => decide (t.report = some ⟨.loadAccessFault, 0x1020, 0x100⟩) && decide (vreg t.v 8 = 0xEEEEEEEEEEEEEEEEEEEEEEEEEEEEBFBE#65536)) = true := by
  decide +kernel
theorem test_vlse32V_ls4 : holds (run 0x0AC5E407#32 (small 0x10 4 [(11, 0x1000), (12, 0x6)] [(8, 0xEEEEEEEEEEEEEEEEEEEEEEEEEEEEEEEE), (9, 0xEEEEEEEEEEEEEEEEEEEEEEEEEEEEEEEE)] memA))
    (fun t => decide (t.report = some ⟨.loadAddressMisaligned, 0x1006, 0x100⟩) && decide (vreg t.v 8 = 0xEEEEEEEEEEEEEEEEEEEEEEEEA3A2A1A0#65536)) = true := by
  decide +kernel
theorem test_vle8ffV_ff5 : holds (run 0x01058407#32 (limit (small 0x0 8 [(11, 0x101E)] [(8, 0xEEEEEEEEEEEEEEEEEEEEEEEEEEEEEEEE), (9, 0xEEEEEEEEEEEEEEEEEEEEEEEEEEEEEEEE), (0, 0xF5)] memA) 0x1020 .accessFault))
    (fun t => decide (vreg t.v 8 = 0xEEEEEEEEEEEEEEEEEEEEEEEEEEEEEEBE#65536) && decide (t.vl = 2#64)) = true := by
  decide +kernel
theorem test_vle16ffV_ff16 : holds (run 0x0305D407#32 (limit (small 0x8 4 [(11, 0x101C)] [(8, 0xEEEEEEEEEEEEEEEEEEEEEEEEEEEEEEEE), (9, 0xEEEEEEEEEEEEEEEEEEEEEEEEEEEEEEEE), (0, 0x0)] memA) 0x1020 .accessFault))
    (fun t => decide (vreg t.v 8 = 0xEEEEEEEEEEEEEEEEEEEEEEEEBFBEBDBC#65536) && decide (t.vl = 2#64)) = true := by
  decide +kernel
theorem test_vle32ffV_ff32 : holds (run 0x0305E407#32 (limit (small 0x10 4 [(11, 0x101C)] [(8, 0xEEEEEEEEEEEEEEEEEEEEEEEEEEEEEEEE), (9, 0xEEEEEEEEEEEEEEEEEEEEEEEEEEEEEEEE), (0, 0x0)] memA) 0x1020 .accessFault))
    (fun t => decide (vreg t.v 8 = 0xEEEEEEEEEEEEEEEEEEEEEEEEBFBEBDBC#65536) && decide (t.vl = 1#64)) = true := by
  decide +kernel
theorem test_vle64ffV_ff64 : holds (run 0x0305F407#32 (limit (small 0x18 2 [(11, 0x1018)] [(8, 0xEEEEEEEEEEEEEEEEEEEEEEEEEEEEEEEE), (9, 0xEEEEEEEEEEEEEEEEEEEEEEEEEEEEEEEE), (0, 0x0)] memA) 0x1020 .accessFault))
    (fun t => decide (vreg t.v 8 = 0xEEEEEEEEEEEEEEEEBFBEBDBCBBBAB9B8#65536) && decide (t.vl = 1#64)) = true := by
  decide +kernel
theorem test_vle8ffV_ff2 : holds (run 0x03058407#32 (limit (small 0x0 8 [(11, 0x1020)] [(8, 0xEEEEEEEEEEEEEEEEEEEEEEEEEEEEEEEE), (9, 0xEEEEEEEEEEEEEEEEEEEEEEEEEEEEEEEE), (0, 0x0)] memA) 0x1020 .accessFault))
    (fun t => decide (t.report = some ⟨.loadAccessFault, 0x1020, 0x100⟩) && decide (vreg t.v 8 = 0xEEEEEEEEEEEEEEEEEEEEEEEEEEEEEEEE#65536)) = true := by
  decide +kernel
theorem test_vlmV_lm1 : holds (run 0x02B58407#32 (small 0x0 10 [(11, 0x1000)] [(8, 0xEEEEEEEEEEEEEEEEEEEEEEEEEEEEEEEE), (9, 0xEEEEEEEEEEEEEEEEEEEEEEEEEEEEEEEE)] memA))
    (fun t => decide (vreg t.v 8 = 0xEEEEEEEEEEEEEEEEEEEEEEEEEEEEA1A0#65536)) = true := by
  decide +kernel
theorem test_vl1re8V_whole1_8 : holds (run 0x02858407#32 (small 0x80000000 0 [(11, 0x1000)] [(8, 0xEEEEEEEEEEEEEEEEEEEEEEEEEEEEEEEE), (9, 0xEEEEEEEEEEEEEEEEEEEEEEEEEEEEEEEE)] memA))
    (fun t => decide (vreg t.v 8 = 0xAFAEADACABAAA9A8A7A6A5A4A3A2A1A0#65536)) = true := by
  decide +kernel
theorem test_vl1re16V_whole1_16 : holds (run 0x0285D407#32 (small 0x80000000 0 [(11, 0x1000)] [(8, 0xEEEEEEEEEEEEEEEEEEEEEEEEEEEEEEEE), (9, 0xEEEEEEEEEEEEEEEEEEEEEEEEEEEEEEEE)] memA))
    (fun t => decide (vreg t.v 8 = 0xAFAEADACABAAA9A8A7A6A5A4A3A2A1A0#65536)) = true := by
  decide +kernel
theorem test_vl1re32V_whole1_32 : holds (run 0x0285E407#32 (small 0x80000000 0 [(11, 0x1000)] [(8, 0xEEEEEEEEEEEEEEEEEEEEEEEEEEEEEEEE), (9, 0xEEEEEEEEEEEEEEEEEEEEEEEEEEEEEEEE)] memA))
    (fun t => decide (vreg t.v 8 = 0xAFAEADACABAAA9A8A7A6A5A4A3A2A1A0#65536)) = true := by
  decide +kernel
theorem test_vl1re64V_whole1_64 : holds (run 0x0285F407#32 (small 0x80000000 0 [(11, 0x1000)] [(8, 0xEEEEEEEEEEEEEEEEEEEEEEEEEEEEEEEE), (9, 0xEEEEEEEEEEEEEEEEEEEEEEEEEEEEEEEE)] memA))
    (fun t => decide (vreg t.v 8 = 0xAFAEADACABAAA9A8A7A6A5A4A3A2A1A0#65536)) = true := by
  decide +kernel
theorem test_vl2re8V_whole2_8 : holds (run 0x22858407#32 (small 0x80000000 0 [(11, 0x1000)] [(8, 0xEEEEEEEEEEEEEEEEEEEEEEEEEEEEEEEE), (9, 0xEEEEEEEEEEEEEEEEEEEEEEEEEEEEEEEE)] memA))
    (fun t => decide (vreg t.v 9 = 0xBFBEBDBCBBBAB9B8B7B6B5B4B3B2B1B0#65536)) = true := by
  decide +kernel
theorem test_vl2re16V_whole2_16 : holds (run 0x2285D407#32 (small 0x80000000 0 [(11, 0x1000)] [(8, 0xEEEEEEEEEEEEEEEEEEEEEEEEEEEEEEEE), (9, 0xEEEEEEEEEEEEEEEEEEEEEEEEEEEEEEEE)] memA))
    (fun t => decide (vreg t.v 9 = 0xBFBEBDBCBBBAB9B8B7B6B5B4B3B2B1B0#65536)) = true := by
  decide +kernel
theorem test_vl2re32V_whole2_32 : holds (run 0x2285E407#32 (small 0x80000000 0 [(11, 0x1000)] [(8, 0xEEEEEEEEEEEEEEEEEEEEEEEEEEEEEEEE), (9, 0xEEEEEEEEEEEEEEEEEEEEEEEEEEEEEEEE)] memA))
    (fun t => decide (vreg t.v 9 = 0xBFBEBDBCBBBAB9B8B7B6B5B4B3B2B1B0#65536)) = true := by
  decide +kernel
theorem test_vl2re64V_whole2_64 : holds (run 0x2285F407#32 (small 0x80000000 0 [(11, 0x1000)] [(8, 0xEEEEEEEEEEEEEEEEEEEEEEEEEEEEEEEE), (9, 0xEEEEEEEEEEEEEEEEEEEEEEEEEEEEEEEE)] memA))
    (fun t => decide (vreg t.v 9 = 0xBFBEBDBCBBBAB9B8B7B6B5B4B3B2B1B0#65536)) = true := by
  decide +kernel
theorem test_vl4re8V_whole4_8 : holds (run 0x62858407#32 (small 0x80000000 0 [(11, 0x1000)] [(8, 0xEEEEEEEEEEEEEEEEEEEEEEEEEEEEEEEE), (9, 0xEEEEEEEEEEEEEEEEEEEEEEEEEEEEEEEE)] memA))
    (fun t => decide (vreg t.v 11 = 0xDFDEDDDCDBDAD9D8D7D6D5D4D3D2D1D0#65536)) = true := by
  decide +kernel
theorem test_vl4re16V_whole4_16 : holds (run 0x6285D407#32 (small 0x80000000 0 [(11, 0x1000)] [(8, 0xEEEEEEEEEEEEEEEEEEEEEEEEEEEEEEEE), (9, 0xEEEEEEEEEEEEEEEEEEEEEEEEEEEEEEEE)] memA))
    (fun t => decide (vreg t.v 11 = 0xDFDEDDDCDBDAD9D8D7D6D5D4D3D2D1D0#65536)) = true := by
  decide +kernel
theorem test_vl4re32V_whole4_32 : holds (run 0x6285E407#32 (small 0x80000000 0 [(11, 0x1000)] [(8, 0xEEEEEEEEEEEEEEEEEEEEEEEEEEEEEEEE), (9, 0xEEEEEEEEEEEEEEEEEEEEEEEEEEEEEEEE)] memA))
    (fun t => decide (vreg t.v 11 = 0xDFDEDDDCDBDAD9D8D7D6D5D4D3D2D1D0#65536)) = true := by
  decide +kernel
theorem test_vl4re64V_whole4_64 : holds (run 0x6285F407#32 (small 0x80000000 0 [(11, 0x1000)] [(8, 0xEEEEEEEEEEEEEEEEEEEEEEEEEEEEEEEE), (9, 0xEEEEEEEEEEEEEEEEEEEEEEEEEEEEEEEE)] memA))
    (fun t => decide (vreg t.v 11 = 0xDFDEDDDCDBDAD9D8D7D6D5D4D3D2D1D0#65536)) = true := by
  decide +kernel
theorem test_vl8re8V_whole8_8 : holds (run 0xE2858407#32 (small 0x80000000 0 [(11, 0x1000)] [(8, 0xEEEEEEEEEEEEEEEEEEEEEEEEEEEEEEEE), (9, 0xEEEEEEEEEEEEEEEEEEEEEEEEEEEEEEEE)] memA))
    (fun t => decide (vreg t.v 15 = 0x0#65536)) = true := by
  decide +kernel
theorem test_vl8re16V_whole8_16 : holds (run 0xE285D407#32 (small 0x80000000 0 [(11, 0x1000)] [(8, 0xEEEEEEEEEEEEEEEEEEEEEEEEEEEEEEEE), (9, 0xEEEEEEEEEEEEEEEEEEEEEEEEEEEEEEEE)] memA))
    (fun t => decide (vreg t.v 15 = 0x0#65536)) = true := by
  decide +kernel
theorem test_vl8re32V_whole8_32 : holds (run 0xE285E407#32 (small 0x80000000 0 [(11, 0x1000)] [(8, 0xEEEEEEEEEEEEEEEEEEEEEEEEEEEEEEEE), (9, 0xEEEEEEEEEEEEEEEEEEEEEEEEEEEEEEEE)] memA))
    (fun t => decide (vreg t.v 15 = 0x0#65536)) = true := by
  decide +kernel
theorem test_vl8re64V_whole8_64 : holds (run 0xE285F407#32 (small 0x80000000 0 [(11, 0x1000)] [(8, 0xEEEEEEEEEEEEEEEEEEEEEEEEEEEEEEEE), (9, 0xEEEEEEEEEEEEEEEEEEEEEEEEEEEEEEEE)] memA))
    (fun t => decide (vreg t.v 15 = 0x0#65536)) = true := by
  decide +kernel
theorem test_vse8V_st1 : holds (run 0x02058427#32 (small 0x0 4 [(11, 0x1002)] [(8, 0xF0E0D0C0B0A09080706050403020100)] mem5))
    (fun t => decide ((List.range 8).map (fun k => Mem.read t.mem (0x1000 + k)) = [0x55#8, 0x55#8, 0x0#8, 0x1#8, 0x2#8, 0x3#8, 0x55#8, 0x55#8])) = true := by
  decide +kernel
theorem test_vse16V_st3 : holds (run 0x0005D427#32 (small 0x8 4 [(11, 0x1000)] [(8, 0xF0E0D0C0B0A09080706050403020100), (0, 0x6)] mem5))
    (fun t => decide ((List.range 8).map (fun k => Mem.read t.mem (0x1000 + k)) = [0x55#8, 0x55#8, 0x2#8, 0x3#8, 0x4#8, 0x5#8, 0x55#8, 0x55#8])) = true := by
  decide +kernel
theorem test_vse32V_st2 : holds (run 0x0205E427#32 (small 0x10 2 [(11, 0x1004)] [(8, 0xF0E0D0C0B0A09080706050403020100)] mem5))
    (fun t => decide ((List.range 16).map (fun k => Mem.read t.mem (0x1000 + k)) = [0x55#8, 0x55#8, 0x55#8, 0x55#8, 0x0#8, 0x1#8, 0x2#8, 0x3#8, 0x4#8, 0x5#8, 0x6#8, 0x7#8, 0x55#8, 0x55#8, 0x55#8, 0x55#8])) = true := by
  decide +kernel
theorem test_vse64V_st64 : holds (run 0x0205F427#32 (small 0x18 1 [(11, 0x1000)] [(8, 0xF0E0D0C0B0A0908)] mem5))
    (fun t => decide ((List.range 8).map (fun k => Mem.read t.mem (0x1000 + k)) = [0x8#8, 0x9#8, 0xA#8, 0xB#8, 0xC#8, 0xD#8, 0xE#8, 0xF#8])) = true := by
  decide +kernel
theorem test_vsse8V_st7 : holds (run 0x0AC58427#32 (small 0x0 4 [(11, 0x1003), (12, 0xFFFFFFFF)] [(8, 0xF0E0D0C0B0A09080706050403020100)] mem5))
    (fun t => decide ((List.range 6).map (fun k => Mem.read t.mem (0x1000 + k)) = [0x3#8, 0x2#8, 0x1#8, 0x0#8, 0x55#8, 0x55#8])) = true := by
  decide +kernel
theorem test_vsse16V_st8 : holds (run 0x0A05D427#32 (small 0x8 4 [(11, 0x1002)] [(8, 0xF0E0D0C0B0A09080706050403020100)] mem5))
    (fun t => decide ((List.range 6).map (fun k => Mem.read t.mem (0x1000 + k)) = [0x55#8, 0x55#8, 0x6#8, 0x7#8, 0x55#8, 0x55#8])) = true := by
  decide +kernel
theorem test_vsse32V_ss32 : holds (run 0x0AC5E427#32 (small 0x10 2 [(11, 0x1004), (12, 0xFFFFFFFC)] [(8, 0xF0E0D0C0B0A09080706050403020100)] mem5))
    (fun t => decide ((List.range 9).map (fun k => Mem.read t.mem (0x1000 + k)) = [0x4#8, 0x5#8, 0x6#8, 0x7#8, 0x0#8, 0x1#8, 0x2#8, 0x3#8, 0x55#8])) = true := by
  decide +kernel
theorem test_vsse64V_ss64 : holds (run 0x0AC5F427#32 (small 0x18 2 [(11, 0x1008), (12, 0xFFFFFFF8)] [(8, 0xF0E0D0C0B0A09080706050403020100)] mem5))
    (fun t => decide ((List.range 16).map (fun k => Mem.read t.mem (0x1000 + k)) = [0x8#8, 0x9#8, 0xA#8, 0xB#8, 0xC#8, 0xD#8, 0xE#8, 0xF#8, 0x0#8, 0x1#8, 0x2#8, 0x3#8, 0x4#8, 0x5#8, 0x6#8, 0x7#8])) = true := by
  decide +kernel
theorem test_vsuxei8V_st12 : holds (run 0x06858427#32 (small 0x0 4 [(11, 0x1000)] [(8, 0x3000102)] mem5))
    (fun t => decide ((List.range 4).map (fun k => Mem.read t.mem (0x1000 + k)) = [0x0#8, 0x1#8, 0x2#8, 0x3#8])) = true := by
  decide +kernel
theorem test_vsuxei16V_sxu16 : holds (run 0x0645D427#32 (small 0x8 2 [(11, 0x1000)] [(8, 0xF0E0D0C0B0A09080706050403020100), (4, 0x2)] mem5))
    (fun t => decide ((List.range 5).map (fun k => Mem.read t.mem (0x1000 + k)) = [0x2#8, 0x3#8, 0x0#8, 0x1#8, 0x55#8])) = true := by
  decide +kernel
theorem test_vsuxei32V_sxu32 : holds (run 0x0645E427#32 (small 0x8 2 [(11, 0x1000)] [(8, 0xF0E0D0C0B0A09080706050403020100), (4, 0x2)] mem5))
    (fun t => decide ((List.range 5).map (fun k => Mem.read t.mem (0x1000 + k)) = [0x2#8, 0x3#8, 0x0#8, 0x1#8, 0x55#8])) = true := by
  decide +kernel
theorem test_vsuxei64V_sxu64 : holds (run 0x0645F427#32 (small 0x8 2 [(11, 0x1000)] [(8, 0xF0E0D0C0B0A09080706050403020100), (4, 0x2)] mem5))
    (fun t => decide ((List.range 5).map (fun k => Mem.read t.mem (0x1000 + k)) = [0x2#8, 0x3#8, 0x0#8, 0x1#8, 0x55#8])) = true := by
  decide +kernel
theorem test_vsoxei8V_st10 : holds (run 0x0E458427#32 (small 0x0 4 [(11, 0x1000)] [(8, 0xF0E0D0C0B0A09080706050403020100), (4, 0x1000100)] mem5))
    (fun t => decide ((List.range 4).map (fun k => Mem.read t.mem (0x1000 + k)) = [0x2#8, 0x3#8, 0x55#8, 0x55#8])) = true := by
  decide +kernel
theorem test_vsoxei16V_st11 : holds (run 0x0E45D427#32 (small 0x10 2 [(11, 0x1000)] [(8, 0xF0E0D0C0B0A09080706050403020100), (4, 0x8)] mem5))
    (fun t => decide ((List.range 12).map (fun k => Mem.read t.mem (0x1000 + k)) = [0x4#8, 0x5#8, 0x6#8, 0x7#8, 0x55#8, 0x55#8, 0x55#8, 0x55#8, 0x0#8, 0x1#8, 0x2#8, 0x3#8])) = true := by
  decide +kernel
theorem test_vsoxei32V_sxo32 : holds (run 0x0E45E427#32 (small 0x8 2 [(11, 0x1000)] [(8, 0xF0E0D0C0B0A09080706050403020100), (4, 0x2)] mem5))
    (fun t => decide ((List.range 5).map (fun k => Mem.read t.mem (0x1000 + k)) = [0x2#8, 0x3#8, 0x0#8, 0x1#8, 0x55#8])) = true := by
  decide +kernel
theorem test_vsoxei64V_sxo64 : holds (run 0x0E45F427#32 (small 0x8 2 [(11, 0x1000)] [(8, 0xF0E0D0C0B0A09080706050403020100), (4, 0x2)] mem5))
    (fun t => decide ((List.range 5).map (fun k => Mem.read t.mem (0x1000 + k)) = [0x2#8, 0x3#8, 0x0#8, 0x1#8, 0x55#8])) = true := by
  decide +kernel
theorem test_vse16V_st13 : holds (run 0x0205D427#32 (limit (small 0x8 4 [(11, 0x1000)] [(8, 0xF0E0D0C0B0A09080706050403020100)] mem5) 0x1004 .accessFault))
    (fun t => decide (t.report = some ⟨.storeAccessFault, 0x1004, 0x100⟩) && decide ((List.range 8).map (fun k => Mem.read t.mem (0x1000 + k)) = [0x0#8, 0x1#8, 0x2#8, 0x3#8, 0x55#8, 0x55#8, 0x55#8, 0x55#8])) = true := by
  decide +kernel
theorem test_vsmV_st20 : holds (run 0x02B58427#32 (limit (small 0x1 17 [(11, 0x1000)] [(8, 0x123456789ABCDEF0123456789ABCDEF)] mem5) 0x1002 .accessFault))
    (fun t => decide (t.report = some ⟨.storeAccessFault, 0x1002, 0x100⟩) && decide ((List.range 4).map (fun k => Mem.read t.mem (0x1000 + k)) = [0xEF#8, 0xCD#8, 0x55#8, 0x55#8])) = true := by
  decide +kernel
theorem test_vs1rV_st21 : holds (run 0x02858427#32 (small 0x80000000 0 [(11, 0x1000)] [(8, 0xF0E0D0C0B0A09080706050403020100)] mem5))
    (fun t => decide ((List.range 17).map (fun k => Mem.read t.mem (0x1000 + k)) = [0x0#8, 0x1#8, 0x2#8, 0x3#8, 0x4#8, 0x5#8, 0x6#8, 0x7#8, 0x8#8, 0x9#8, 0xA#8, 0xB#8, 0xC#8, 0xD#8, 0xE#8, 0xF#8, 0x55#8])) = true := by
  decide +kernel
theorem test_vs2rV_st22 : holds (run 0x22858427#32 (small 0x0 4 [(11, 0x1001)] [(8, 0xF0E0D0C0B0A09080706050403020100), (9, 0xF0E0D0C0B0A09080706050403020100)] mem5))
    (fun t => decide ((List.range 34).map (fun k => Mem.read t.mem (0x1000 + k)) = [0x55#8, 0x0#8, 0x1#8, 0x2#8, 0x3#8, 0x4#8, 0x5#8, 0x6#8, 0x7#8, 0x8#8, 0x9#8, 0xA#8, 0xB#8, 0xC#8, 0xD#8, 0xE#8, 0xF#8, 0x0#8, 0x1#8, 0x2#8, 0x3#8, 0x4#8, 0x5#8, 0x6#8, 0x7#8, 0x8#8, 0x9#8, 0xA#8, 0xB#8, 0xC#8, 0xD#8, 0xE#8, 0xF#8, 0x55#8])) = true := by
  decide +kernel
theorem test_vs4rV_vs4r : holds (run 0x62858427#32 (small 0x80000000 0 [(11, 0x1000)] [(8, 0x55020100)] mem5))
    (fun t => decide ((List.range 4).map (fun k => Mem.read t.mem (0x1000 + k)) = [0x0#8, 0x1#8, 0x2#8, 0x55#8])) = true := by
  decide +kernel
theorem test_vs8rV_vs8r : holds (run 0xE2858427#32 (small 0x80000000 0 [(11, 0x1000)] [(8, 0x55020100)] mem5))
    (fun t => decide ((List.range 4).map (fun k => Mem.read t.mem (0x1000 + k)) = [0x0#8, 0x1#8, 0x2#8, 0x55#8])) = true := by
  decide +kernel

/-- A step fetches the word placed where it fetches, and runs it (L2-CFG row 1). -/
theorem test_step_runs_placed_word :
    holds (step ((small 0x80000000 0 [(10, 3)] [] []).withFetchWord 32 0x0D0572D7))
      (fun t => decide (t.vl = 3#64) && decide (t.pc = 0x104#64)) = true := by
  decide +kernel

/-! ### Witnesses: for every obligation with hypotheses, a state and operands that meet them

`wA` is `e8, m1`, `vl = VLMAX`; `wB` the same with the last element the only one left (`vstart = 15`). The masks of both
have every bit set but bit 0. -/

def wA : State :=
  small 0x00 16 [(10, 5), (11, 0x1000), (12, 8), (13, 0x1001)] [(0, 0xFFFE), (16, 0x0F0E0D0C0B0A09080706050403020100)] memA

def wB : State := { wA with vstart := 15 }

theorem wA_sized : wA.sized := ⟨by decide +kernel, by decide +kernel⟩
theorem wB_sized : wB.sized := ⟨by decide +kernel, by decide +kernel⟩
theorem wA_arithReady : wA.arithReady := ⟨rfl, by decide +kernel, by decide +kernel, .inl rfl⟩
theorem wB_arithReady : wB.arithReady := ⟨rfl, by decide +kernel, by decide +kernel, .inl rfl⟩
theorem wA_memReady : wA.memReady := ⟨rfl, by decide +kernel, by decide +kernel⟩
theorem wB_memReady : wB.memReady := ⟨rfl, by decide +kernel, by decide +kernel⟩

/-- EncodeOfDecode. -/
theorem witness_EncodeOfDecode :
    decodeWord 0xFFFFFFD7#32 = .instr (.vsetivli 31 31 0x3FF) ∧ decodeWord 0x82007057#32 = .reserved := by decide +kernel

/-- ReservedEncodingsDecode, clause by clause. -/
theorem witness_ReservedEncodingsDecode :
    ((0b000#3 = 0b000#3 ∨ 0b000#3 = 0b100#3 ∨ 0b000#3 = 0b011#3) ∧ (0b010010#6 = 0b010000#6 ∨ 0b010010#6 = 0b010010#6)) ∧
      ((1#5).toNat < 2 ∧ 7 < (8#5).toNat) ∧
      (fOpcode 0x82007057#32 = 0b1010111#7 ∧ fFunct3 0x82007057#32 = 0b111#3 ∧
        (0x82007057#32).extractLsb' 30 2 = 0b10#2 ∧ (0x82007057#32).extractLsb' 25 5 ≠ 0#5) ∧
      (fOpcode 0x12058407#32 = 0b0000111#7 ∧ vectorWidth 0x12058407#32 = true ∧ fMew 0x12058407#32 = true) := by
  decide +kernel

/-- ReservedEncodingsDecode, the clauses of `lumop` and `sumop`: the lowest and the highest undefined code; for a
whole-register word `vm`, the first and the last undefined `nf` and, for a store, `width`; for a mask word each of the
three fields. -/
theorem witness_ReservedEncodingsDecode_unit :
    ([0x02158407#32, 0x03F58407#32, 0x00858407#32, 0x42858407#32, 0xC2858407#32, 0x00B58407#32, 0x22B58407#32,
        0x02B5D407#32].all (fun w => fOpcode w == 0b0000111#7 && vectorWidth w && fMop w == 0b00#2) &&
      [0x02158427#32, 0x03058427#32, 0x00858427#32, 0x42858427#32, 0xC2858427#32, 0x0285D427#32, 0x00B58427#32,
        0x22B58427#32, 0x02B5D427#32].all (fun w => fOpcode w == 0b0100111#7 && vectorWidth w && fMop w == 0b00#2)) = true ∧
      [0x02158407#32, 0x03F58407#32, 0x02158427#32, 0x03058427#32].map fRs2 = [0b00001#5, 0b11111#5, 0b00001#5, 0b10000#5] ∧
      [0x00858407#32, 0x42858407#32, 0xC2858407#32, 0x00858427#32, 0x42858427#32, 0xC2858427#32, 0x0285D427#32].map
          (fun w => (fRs2 w, fVm w, fNf w, fFunct3 w)) =
        [(0b01000#5, false, 0b000#3, 0b000#3), (0b01000#5, true, 0b010#3, 0b000#3), (0b01000#5, true, 0b110#3, 0b000#3),
          (0b01000#5, false, 0b000#3, 0b000#3), (0b01000#5, true, 0b010#3, 0b000#3), (0b01000#5, true, 0b110#3, 0b000#3),
          (0b01000#5, true, 0b000#3, 0b101#3)] ∧
      [0x00B58407#32, 0x22B58407#32, 0x02B5D407#32, 0x00B58427#32, 0x22B58427#32, 0x02B5D427#32].map
          (fun w => (fRs2 w, fVm w, fNf w, fFunct3 w)) =
        [(0b01011#5, false, 0b000#3, 0b000#3), (0b01011#5, true, 0b001#3, 0b000#3), (0b01011#5, true, 0b000#3, 0b101#3),
          (0b01011#5, false, 0b000#3, 0b000#3), (0b01011#5, true, 0b001#3, 0b000#3), (0b01011#5, true, 0b000#3, 0b101#3)] := by
  decide +kernel

/-- The instruction at `pc`: the last word of the address space, its lowest address included in the fetch. -/
def placed (w : Nat) : State := ({ wA with pc := 0xFFFFFFFC } : State).withFetchWord 32 w

/-- StepRunsDecodedInstruction. -/
theorem witness_StepRunsDecodedInstruction :
    let s := placed 0x02058407
    s.cfg.wf ∧ fetchAligned s = true ∧ memAdmits s.cfg s.pc.toNat 4 .fetch = .ok ∧
      (attrAt s.cfg s.pc.toNat 4).idempotent = true ∧ (∀ k < 4, fetchAddress s k ∉ s.unsynced) ∧
      decodeBytes ((List.range 4).map (fun k => Mem.read s.mem (fetchAddress s k))) = .instr (.vle8V 8 11 true) := by
  decide +kernel

/-- StepOnOtherWords: a reserved word, one out of scope, one of the base ISA. -/
theorem witness_StepOnOtherWords :
    ∀ p ∈ [(0x12058407, Decoded.reserved), (0x02860257, .notInScope), (0xFFF50513, .notVector)],
      let s := placed p.1
      s.cfg.wf ∧ fetchAligned s = true ∧ memAdmits s.cfg s.pc.toNat 4 .fetch = .ok ∧
        (attrAt s.cfg s.pc.toNat 4).idempotent = true ∧ (∀ k < 4, fetchAddress s k ∉ s.unsynced) ∧
        decodeWord (wordOfBytes (Mem.read s.mem (fetchAddress s 0)) (Mem.read s.mem (fetchAddress s 1))
          (Mem.read s.mem (fetchAddress s 2)) (Mem.read s.mem (fetchAddress s 3))) = p.2 := by
  decide +kernel

/-- A state whose fetch at 0x2000 is refused with `f`. -/
def noFetch (f : Admit) : State :=
  { wA with
    pc := 0x2000
    cfg := { wA.cfg with regions := [⟨0, 0x2000, openMemory⟩], elsewhere := { openMemory with fetch := f } } }

/-- FetchExceptions: `pc` just past an aligned address, then the first refused address. -/
theorem witness_FetchExceptions :
    wA.cfg.wf ∧ fetchAligned { wA with pc := 0x101 } = false ∧
      (∀ f ∈ [Admit.accessFault, .pageFault], (noFetch f).cfg.wf ∧ fetchAligned (noFetch f) = true ∧
        memAdmits (noFetch f).cfg (noFetch f).pc.toNat 4 .fetch = f) := by
  decide +kernel

/-- The state of the step invariants: a `vse8.v` about to run in a legal state. -/
def wStep : State := wA.withFetchWord 32 0x02058427

theorem wStep_next : ∃ t, step wStep = .next t := exists_next (by decide +kernel)

theorem wStep_vtypeLegal : wStep.vtypeLegal := by
  right
  exact ⟨by decide +kernel, by decide +kernel, (by decide +kernel : supportsVtype _ _ _ = true), by decide +kernel⟩

theorem wStep_memoryLegal : wStep.memoryLegal :=
  ⟨by decide +kernel, by decide +kernel, by decide +kernel, by decide +kernel⟩

theorem wStep_registersLegal : wStep.registersLegal := by
  have h : ∀ r : Fin 32, (wStep.v.get r).toNat < 2 ^ 128 := by decide +kernel
  refine ⟨fun n j hj => ?_, by decide +kernel, by decide +kernel, by decide +kernel, by decide +kernel⟩
  have hv : wStep.cfg.vlen = 128 := by decide +kernel
  exact Nat.testBit_lt_two_pow
    (Nat.lt_of_lt_of_le (h (Fin.ofNat 32 n)) (Nat.pow_le_pow_right (by decide) (hv ▸ hj)))

theorem wStep_trapRegistersLegal : wStep.trapRegistersLegal := by
  constructor <;> decide +kernel

/-- StepKeepsVtypeLegal. -/
theorem witness_StepKeepsVtypeLegal : ∃ t, wStep.vtypeLegal ∧ step wStep = .next t :=
  wStep_next.imp fun _ h => ⟨wStep_vtypeLegal, h⟩

/-- StepKeepsMemoryLegal. -/
theorem witness_StepKeepsMemoryLegal : ∃ t, wStep.vtypeLegal ∧ wStep.memoryLegal ∧ step wStep = .next t :=
  wStep_next.imp fun _ h => ⟨wStep_vtypeLegal, wStep_memoryLegal, h⟩

/-- StepKeepsRegistersLegal. -/
theorem witness_StepKeepsRegistersLegal :
    ∃ t, wStep.vtypeLegal ∧ wStep.registersLegal ∧ wStep.trapRegistersLegal ∧ step wStep = .next t :=
  wStep_next.imp fun _ h => ⟨wStep_vtypeLegal, wStep_registersLegal, wStep_trapRegistersLegal, h⟩

/-- StepLeavesPcAligned and StepKeepsParametersAndFixedPoint, at `vl = VLEN`. -/
theorem witness_StepLeavesPcAligned :
    let s := (small 0x03 128 [(11, 0x1000)] [] memA).withFetchWord 32 0x02058427
    s.vlN = s.cfg.vlen ∧ ∃ t, step s = .next t :=
  ⟨by decide +kernel, exists_next (by decide +kernel)⟩

theorem witness_StepKeepsParametersAndFixedPoint : ∃ t, wStep.vlN ≤ wStep.cfg.vlen ∧ step wStep = .next t :=
  wStep_next.imp fun _ h => ⟨by decide +kernel, h⟩

/-- One instruction of each kind. -/
def oneOfEachKind : List (Kind × Instr) :=
  [(.config, .vsetvli 5 10 0xD0), (.arith, .vwadduVv 8 4 6 true), (.load, .vle8V 8 11 true), (.first, .vle8ffV 8 11 true),
    (.maskLoad, .vlmV 8 11), (.wholeLoad, .vl2re8V 8 11), (.store, .vse8V 8 11 true), (.maskStore, .vsmV 8 11),
    (.wholeStore, .vs2rV 8 11)]

theorem wA_runs_each_kind :
    wA.sized ∧ ∀ p ∈ oneOfEachKind, kindOf p.2 = p.1 ∧ ∃ t, exec p.2 wA = .next t := by
  refine ⟨wA_sized, fun p hp => ?_⟩
  have h : oneOfEachKind.all
      (fun p => decide (kindOf p.2 = p.1) && holds (exec p.2 wA) (fun _ => true)) = true := by decide +kernel
  have h2 := List.all_eq_true.mp h p hp
  simp only [Bool.and_eq_true, decide_eq_true_eq] at h2
  exact ⟨h2.1, exists_next h2.2⟩

/-- CompletesOrTraps: a store that completes and one that traps. -/
theorem witness_CompletesOrTraps :
    wA.sized ∧ (∃ t, exec (.vse8V 8 11 true) wA = .next t ∧ decide (t.report = none) = true) ∧
      (limit wA 0x1004 .pageFault).sized ∧
      ∃ t, exec (.vse8V 8 11 true) (limit wA 0x1004 .pageFault) = .next t ∧
        decide (t.report = some ⟨.storePageFault, 0x1004, 0x100⟩) = true :=
  ⟨wA_sized, exists_next_of (by decide +kernel), ⟨by decide +kernel, by decide +kernel⟩,
    exists_next_of (by decide +kernel)⟩

/-- WhoWritesVlAndVtype: the three kinds its clauses tell apart. -/
theorem witness_WhoWritesVlAndVtype :
    wA.sized ∧ ∀ p ∈ [(Kind.arith, Instr.vwadduVv 8 4 6 true), (.first, .vle8ffV 8 11 true)],
      kindOf p.2 = p.1 ∧ ∃ t, exec p.2 wA = .next t :=
  ⟨wA_sized, fun p hp => wA_runs_each_kind.2 p (by
    revert p; decide)⟩

/-- WhoWritesScalars: an instruction of another kind, and each configuration instruction with `rd = x0` and not. -/
theorem witness_WhoWritesScalars :
    wA.sized ∧ (∃ t, exec (.vle8V 8 11 true) wA = .next t) ∧ (∃ t, exec (.vsetvli 5 10 0xD0) wA = .next t) ∧
      (∃ t, exec (.vsetivli 0 31 0xC0) wA = .next t) ∧ (∃ t, exec (.vsetvl 31 10 11) wA = .next t) :=
  ⟨wA_sized, exists_next (by decide +kernel), exists_next (by decide +kernel), exists_next (by decide +kernel),
    exists_next (by decide +kernel)⟩

/-- WhoWritesMemoryAndVectors: every kind runs. -/
theorem witness_WhoWritesMemoryAndVectors :
    wA.sized ∧ ∀ p ∈ oneOfEachKind, kindOf p.2 = p.1 ∧ ∃ t, exec p.2 wA = .next t := wA_runs_each_kind

/-- IllegalInstructionChangesNothing: `vadc.vvm` into `v0`. -/
theorem witness_IllegalInstructionChangesNothing :
    wA.sized ∧ ∃ t, exec (.vadcVvm 0 8 12) wA = .next t ∧
      decide (t.report = some ⟨.illegalInstruction, 0x40860057, 0x100⟩) = true :=
  ⟨wA_sized, exists_next_of (by decide +kernel)⟩

/-- VectorUnitOffRaisesIllegal. -/
theorem witness_VectorUnitOffRaisesIllegal : ({ wA with mstatus := { wA.mstatus with vs := .off } } : State).mstatus.vs = .off :=
  rfl

/-- VillRaisesIllegal, a load and the mask store. -/
theorem witness_VillRaisesIllegal :
    (small 0x80000000 0 [] [] []).vill = true ∧ (kindOf (.vle8V 8 11 true)).usesVtype = true ∧
      (kindOf (.vsmV 8 11)).usesVtype = true := by decide +kernel

/-- VstartTooLargeRaisesIllegal, at `vstart = VLMAX`. -/
theorem witness_VstartTooLargeRaisesIllegal :
    ({ wA with vstart := 16 } : State).vlmax = ({ wA with vstart := 16 } : State).vstartN ∧
      (kindOf (.vle8V 8 11 true)).checksVstart = true := by decide +kernel

/-- ArithVstartPolicy. -/
theorem witness_ArithVstartPolicy :
    let s := { wA with cfg := { wA.cfg with arithVstart := .trapNonzero }, vstart := 1 }
    s.cfg.arithVstart = .trapNonzero ∧ s.vstartN ≠ 0 ∧ kindOf (.vmandMm 3 2 1) = .arith := by decide +kernel

/-- EmptyBodyWritesNothing, at `vl = vstart`: a state in which the instruction completes. -/
theorem witness_EmptyBodyWritesNothing :
    let s := { wA with vl := 4, vstart := 4 }
    s.vlN ≤ s.vstartN ∧ (kindOf (.vle8V 8 11 true)).checksVstart = true ∧
      ∃ t, exec (.vle8V 8 11 true) s = .next t ∧ decide (t.report = none) = true :=
  ⟨by decide +kernel, rfl, exists_next_of (by decide +kernel)⟩

/-- A state in supervisor mode that delegates the exceptions of codes 2 and 15. -/
def wDelegating : State := { wA with priv := .supervisor, medeleg := 0x8004 }

/-- TrapEntryRegisters: machine mode, a cause that is not delegated, and one that is. -/
theorem witness_TrapEntryRegisters :
    (wA.priv = .machine ∧ wDelegating.medeleg.getLsbD Cause.loadAccessFault.code = false) ∧
      wDelegating.priv ≠ .machine ∧ wDelegating.medeleg.getLsbD Cause.storePageFault.code = true := by decide +kernel

/-- TrapReturnRestores, both clauses, `pc` at the top of the address space. -/
theorem witness_TrapReturnRestores :
    let s := { wDelegating with pc := 0xFFFFFFFC }
    s.pc.toNat < 2 ^ s.cfg.xbits ∧ s.delegated .loadAccessFault = false ∧ s.delegated .illegalInstruction = true := by
  decide +kernel

/-- VlenbReadsVlenOverEight: the unit on, a write that succeeds, an instruction that runs. -/
theorem witness_VlenbReadsVlenOverEight :
    wA.vsEnabled = true ∧ (∃ t, writeCsr .vcsr 7 wA = .ok t) ∧ wA.sized ∧
      ∃ t, exec (.vsetvli 5 10 0xD0) wA = .next t :=
  ⟨rfl, ⟨_, rfl⟩, wA_sized, exists_next (by decide +kernel)⟩

/-- VcsrMirrors and CsrAccess. -/
theorem witness_VcsrMirrors : wA.vsEnabled = true := rfl

theorem witness_CsrAccess : wA.vsEnabled = true ∧ wA.cfg.wf ∧ ∃ t, writeCsr .vstart 0x1FF wA = .ok t :=
  ⟨rfl, wA_sized.params, ⟨_, rfl⟩⟩

/-- R365: `SD` follows any of the three fields, a vector instruction sets it, and `misa.V` shows the extension. -/
theorem test_status_summary :
    State.reset.mstatus.sd = false ∧ ({ MStatus.reset with fs := .dirty } : MStatus).sd = true ∧
      ({ MStatus.reset with xs := .dirty } : MStatus).sd = true ∧
      holds (exec (.vsetvli 5 10 0xD0) wA) (fun t => t.mstatus.sd) = true ∧ State.reset.misaV = true ∧
      (State.reset.writeVs 0b00#2).vsEnabled = false := by decide +kernel

/-- FenceLetsFetchSeeStores: a store while an address is not yet synchronised. -/
theorem witness_FenceLetsFetchSeeStores :
    let s : State := { wA with unsynced := [0x1000] }
    s.sized ∧ 0x1000 ∈ s.unsynced ∧ ∃ t, exec (.vse8V 8 11 true) s = .next t :=
  ⟨⟨by decide +kernel, by decide +kernel⟩, by decide, exists_next (by decide +kernel)⟩

/-- VsetvliResult: the three sources of the AVL, at the widest setting (`e64, m8, ta, ma`) and at one that keeps VLMAX. -/
theorem witness_VsetvliResult :
    wA.cfg.wf ∧ wA.vsEnabled = true ∧
      (((0xDB#11).setWidth 64 : XWord).toNat < 256 ∧
        supportsVtype wA.cfg (fieldVsew ((0xDB#11).setWidth 64)) (fieldVlmul ((0xDB#11).setWidth 64)) = true) ∧
      ((10#5 ≠ 0#5 ∧ 5 = (wA.readX 10).toNat) ∧ 5#5 ≠ 0#5 ∧ 2 ^ wA.cfg.xbits - 1 = 0xFFFFFFFF) ∧
      supportsVtype wA.cfg (fieldVsew ((0xC9#11).setWidth 64)) (fieldVlmul ((0xC9#11).setWidth 64)) = true ∧
      wA.vill = false ∧ vlmaxOf wA.cfg (fieldVsew ((0xC9#11).setWidth 64)) (fieldVlmul ((0xC9#11).setWidth 64)) = wA.vlmax ∧
      16 = wA.vlN := by
  decide +kernel

/-- VsetvlResult: the same, with the setting in x14. -/
theorem witness_VsetvlResult :
    let s := small 0x00 16 [(10, 5), (14, 0xC9)] [] []
    s.cfg.wf ∧ s.vsEnabled = true ∧ (s.readX 14).toNat < 256 ∧
      supportsVtype s.cfg (fieldVsew (s.readX 14)) (fieldVlmul (s.readX 14)) = true ∧
      (10#5 ≠ 0#5 ∧ 5 = (s.readX 10).toNat) ∧ 5#5 ≠ 0#5 ∧ s.vill = false ∧
      vlmaxOf s.cfg (fieldVsew (s.readX 14)) (fieldVlmul (s.readX 14)) = s.vlmax ∧ 16 = s.vlN := by
  decide +kernel

/-- VsetivliResult. -/
theorem witness_VsetivliResult :
    wA.cfg.wf ∧ wA.vsEnabled = true ∧ ((0xDB#10).setWidth 64 : XWord).toNat < 256 ∧
      supportsVtype wA.cfg (fieldVsew ((0xDB#10).setWidth 64)) (fieldVlmul ((0xDB#10).setWidth 64)) = true := by
  decide +kernel

/-- UnsupportedSettingSetsVill: a candidate of 256, `e64, mf2`, and the form that keeps `vl` with another VLMAX or with
`vill` set. -/
theorem witness_UnsupportedSettingSetsVill :
    wA.vsEnabled = true ∧ 256 ≤ ((0x100#11).setWidth 64 : XWord).toNat ∧
      supportsVtype wA.cfg (fieldVsew ((0xDF#10).setWidth 64)) (fieldVlmul ((0xDF#10).setWidth 64)) = false ∧
      256 ≤ (wA.readX 11).toNat ∧
      vlmaxOf wA.cfg (fieldVsew ((0xD0#11).setWidth 64)) (fieldVlmul ((0xD0#11).setWidth 64)) ≠ wA.vlmax ∧
      (small 0x80000000 0 [] [] []).vill = true := by
  decide +kernel

/-- ChosenVlMeetsConstraints: AVL at both ends of each range, VLMAX 4 and 1. -/
theorem witness_ChosenVlMeetsConstraints :
    (1 ≤ 4 ∧ 4 ≤ 4 ∧ 4 < 5 ∧ 5 < 2 * 4 ∧ 7 < 2 * 4 ∧ 2 * 4 ≤ 8) ∧ 1 ≤ 1 ∧ 2 * 1 ≤ 2 ∧ cfgA.vlPolicy = .minimum := by decide

/-- DefaultSupportedSettings and VlmaxIsExact: the smallest and the largest setting of CFG-A. -/
theorem witness_DefaultSupportedSettings : cfgA.wf ∧ cfgA.extraVtypes = [] := by decide

theorem witness_VlmaxIsExact :
    cfgA.wf ∧ supportsVtype cfgA 0b000#3 0b101#3 = true ∧ supportsVtype cfgA 0b011#3 0b011#3 = true := by decide

/-- WideningVvResult: masked, in `wA` and with one element left. -/
theorem witness_WideningVvResult :
    ∀ s ∈ [wA, wB], (s.sized ∧ s.arithReady) ∧
      groupOk s.cfg 30#5 (2 * s.lmul8) (2 * s.sew) = true ∧ (30#5 ≠ 0#5) ∧ groupOk s.cfg 31#5 s.lmul8 s.sew = true ∧
      overlapOk 30#5 (2 * s.sew) (2 * s.lmul8) 31#5 s.sew s.lmul8 = true ∧ groupOk s.cfg 6#5 s.lmul8 s.sew = true ∧
      overlapOk 30#5 (2 * s.sew) (2 * s.lmul8) 6#5 s.sew s.lmul8 = true := by
  refine List.forall_mem_cons.mpr ⟨⟨⟨wA_sized, wA_arithReady⟩, by decide +kernel⟩,
    List.forall_mem_cons.mpr ⟨⟨⟨wB_sized, wB_arithReady⟩, by decide +kernel⟩, fun _ h => by cases h⟩⟩

/-- WideningVxResult: unmasked into `v0`. -/
theorem witness_WideningVxResult :
    wB.sized ∧ wB.arithReady ∧ groupOk wB.cfg 0#5 (2 * wB.lmul8) (2 * wB.sew) = true ∧
      groupOk wB.cfg 1#5 wB.lmul8 wB.sew = true ∧ overlapOk 0#5 (2 * wB.sew) (2 * wB.lmul8) 1#5 wB.sew wB.lmul8 = true :=
  ⟨wB_sized, wB_arithReady, by decide +kernel⟩

/-- WideningWvResult: the wide source is the destination. -/
theorem witness_WideningWvResult :
    wB.sized ∧ wB.arithReady ∧ groupOk wB.cfg 8#5 (2 * wB.lmul8) (2 * wB.sew) = true ∧ groupOk wB.cfg 9#5 wB.lmul8 wB.sew = true ∧
      overlapOk 8#5 (2 * wB.sew) (2 * wB.lmul8) 9#5 wB.sew wB.lmul8 = true :=
  ⟨wB_sized, wB_arithReady, by decide +kernel⟩

/-- WideningWxResult. -/
theorem witness_WideningWxResult :
    wA.sized ∧ wA.arithReady ∧ groupOk wA.cfg 8#5 (2 * wA.lmul8) (2 * wA.sew) = true ∧
      groupOk wA.cfg 30#5 (2 * wA.lmul8) (2 * wA.sew) = true :=
  ⟨wA_sized, wA_arithReady, by decide +kernel⟩

/-- ExtensionResult: `e64, m1`, so that each of the three fractions is allowed. -/
theorem witness_ExtensionResult :
    let s := small 0x18 2 [] [(4, 0x7FFF)] []
    (s.sized ∧ s.arithReady) ∧ groupOk s.cfg 8#5 s.lmul8 s.sew = true ∧
      ∀ k ∈ [8, 4, 2], groupOk s.cfg 4#5 (s.lmul8 / k) (s.sew / k) = true ∧
        overlapOk 8#5 s.sew s.lmul8 4#5 (s.sew / k) (s.lmul8 / k) = true :=
  ⟨⟨⟨by decide +kernel, by decide +kernel⟩, ⟨rfl, by decide +kernel, by decide +kernel, .inl rfl⟩⟩, by decide +kernel⟩

/-- AddSubtractWithCarryResult. -/
theorem witness_AddSubtractWithCarryResult :
    wB.sized ∧ wB.arithReady ∧ 1#5 ≠ 0#5 ∧ groupOk wB.cfg 1#5 wB.lmul8 wB.sew = true ∧
      groupOk wB.cfg 31#5 wB.lmul8 wB.sew = true :=
  ⟨wB_sized, wB_arithReady, by decide +kernel⟩

/-- CarryOutResult: into `v0`, and into the lowest register of a source group of two (`e8, m2`). -/
theorem witness_CarryOutResult :
    let s := small 0x01 32 [] [] []
    (wA.sized ∧ wA.arithReady ∧ groupOk wA.cfg 8#5 wA.lmul8 wA.sew = true ∧ overlapOk 0#5 1 8 8#5 wA.sew wA.lmul8 = true) ∧
      (s.sized ∧ s.arithReady) ∧ groupOk s.cfg 8#5 s.lmul8 s.sew = true ∧ overlapOk 8#5 1 8 8#5 s.sew s.lmul8 = true ∧
      groupOk s.cfg 12#5 s.lmul8 s.sew = true ∧ overlapOk 8#5 1 8 12#5 s.sew s.lmul8 = true :=
  ⟨⟨wA_sized, wA_arithReady, by decide +kernel⟩,
    ⟨⟨by decide +kernel, by decide +kernel⟩, ⟨rfl, by decide +kernel, by decide +kernel, .inl rfl⟩⟩, by decide +kernel⟩

/-- MaskAndResult. -/
theorem witness_MaskAndResult : wB.sized ∧ wB.arithReady := ⟨wB_sized, wB_arithReady⟩

/-- ScalarAndImmediateOperands: SEW = XLEN meets both width clauses, and they then agree; SEW 5 the last. -/
theorem witness_ScalarAndImmediateOperands :
    8 ≤ wA.cfg.xbits ∧ 32 ≤ wA.cfg.xbits ∧ wA.cfg.xbits ≤ 32 ∧ wA.cfg.xbits ≤ 64 ∧ 5 ≤ 5 := by decide +kernel

/-- ReservedOperandsRaiseIllegal: each condition of each clause fails somewhere. `e8`, `e16`, `e32`, `e64` have LMUL 1,
`m2` is `e8, m2`, `m8` is `e8, m8`, `mf8` is `e8, mf8`. -/
theorem witness_ReservedOperandsRaiseIllegal_widening :
    let m2 := small 0x01 32 [] [] []
    (∀ s ∈ [small 0x18 2 [] [] [], small 0x03 128 [] [] []], groupOk s.cfg 8 (2 * s.lmul8) (2 * s.sew) = false) ∧
      groupOk wA.cfg 9 (2 * wA.lmul8) (2 * wA.sew) = false ∧ v0Ok 0 false = false ∧
      groupOk m2.cfg 9 m2.lmul8 m2.sew = false ∧
      overlapOk 8 (2 * wA.sew) (2 * wA.lmul8) 8 wA.sew wA.lmul8 = false := by
  decide +kernel

theorem witness_ReservedOperandsRaiseIllegal_extension :
    let mf8 := small 0x05 2 [] [] []
    let e16 := small 0x08 8 [] [] []
    let e32 := small 0x10 4 [] [] []
    let e64 := small 0x18 2 [] [] []
    (∀ k ∈ [8, 4, 2], groupOk mf8.cfg 8 (mf8.lmul8 / k) (mf8.sew / k) = false) ∧
      (∀ p ∈ [(8, e64), (4, e32), (2, e16)],
        overlapOk 8 p.2.sew p.2.lmul8 8 (p.2.sew / p.1) (p.2.lmul8 / p.1) = false) ∧
      (let m2 := small 0x01 32 [] [] []; groupOk m2.cfg 9 m2.lmul8 m2.sew = false) := by
  decide +kernel

/-- The carry clauses: a source group not in order, and a mask destination inside a source group past its base. -/
theorem witness_ReservedOperandsRaiseIllegal_carry :
    let m2 := small 0x01 32 [] [] []
    groupOk m2.cfg 9 m2.lmul8 m2.sew = false ∧ overlapOk 9 1 8 8 m2.sew m2.lmul8 = false := by decide +kernel

/-- The load and store clauses of each width `w`: an EMUL above 8 (`e8, m8` for `w > 8`), one below 1/8 (`e64, mf8` for
`w = 8`), a base that is no multiple of it; a forbidden overlap of an indexed load; then ELEN = 8 and the multiples of
`n`. -/
theorem witness_ReservedOperandsRaiseIllegal_memory :
    let m2 := small 0x01 32 [] [] []
    let m8 := small 0x03 128 [] [] []
    let e64 := small 0x18 2 [] [] []
    let low := small 0x1D 1 [] [] []
    let elen8 := { wA with cfg := { wA.cfg with lgElen := 3 } }
    (∀ w ∈ [16, 32, 64], groupOk m8.cfg 8 (m8.emul8 w) w = false ∧ elen8.cfg.elen < w) ∧
      groupOk low.cfg 8 (low.emul8 8) 8 = false ∧ (∀ w ∈ [8, 16, 32, 64], groupOk m2.cfg 9 (m2.emul8 w) w = false) ∧
      (∀ w ∈ [8, 16, 32], overlapOk 8 e64.sew e64.lmul8 8 w (e64.emul8 w) = false) ∧
      overlapOk 9 wA.sew wA.lmul8 8 64 (wA.emul8 64) = false ∧ ∀ n ∈ [2, 4, 8], (9#5).toNat % n ≠ 0 := by
  decide +kernel

/-- UnitAndStridedLoadResult and UnitAndStridedStoreResult: each width, masked, to the last element; then the last
element alone. -/
theorem witness_UnitAndStridedLoadResult :
    ∀ s ∈ [wA, wB], (s.sized ∧ s.memReady) ∧ 8#5 ≠ 0#5 ∧ ∀ w ∈ [8, 16, 32, 64],
      groupOk s.cfg 8 (s.emul8 w) w = true ∧ s.elementsOk .load w s.vlN (s.maskOn false) (unitAddr s 11 (w / 8)) ∧
        s.elementsOk .load w s.vlN (s.maskOn false) (stridedAddr s 11 12) := by
  have h : ∀ s ∈ [wA, wB], ∀ w ∈ [8, 16, 32, 64], (groupOk s.cfg 8 (s.emul8 w) w &&
      (elementsFine s .load w s.vlN (s.maskOn false) (unitAddr s 11 (w / 8)) &&
        elementsFine s .load w s.vlN (s.maskOn false) (stridedAddr s 11 12))) = true := by decide +kernel
  intro s hs
  refine ⟨?_, by decide, fun w hw => ?_⟩
  · rcases List.mem_cons.mp hs with rfl | hs
    · exact ⟨wA_sized, wA_memReady⟩
    · rcases List.mem_cons.mp hs with rfl | hs
      · exact ⟨wB_sized, wB_memReady⟩
      · cases hs
  · have h2 := h s hs w hw
    simp only [Bool.and_eq_true] at h2
    exact ⟨h2.1, elementsFine.ok h2.2.1, elementsFine.ok h2.2.2⟩

theorem witness_UnitAndStridedStoreResult :
    wA.sized ∧ wA.memReady ∧ ∀ w ∈ [8, 16, 32, 64],
      groupOk wA.cfg 8 (wA.emul8 w) w = true ∧ wA.elementsOk .store w wA.vlN (wA.maskOn false) (unitAddr wA 11 (w / 8)) ∧
        wA.elementsOk .store w wA.vlN (wA.maskOn false) (stridedAddr wA 11 12) := by
  have h : ∀ w ∈ [8, 16, 32, 64], (groupOk wA.cfg 8 (wA.emul8 w) w &&
      (elementsFine wA .store w wA.vlN (wA.maskOn false) (unitAddr wA 11 (w / 8)) &&
        elementsFine wA .store w wA.vlN (wA.maskOn false) (stridedAddr wA 11 12))) = true := by decide +kernel
  refine ⟨wA_sized, wA_memReady, fun w hw => ?_⟩
  have h2 := h w hw
  simp only [Bool.and_eq_true] at h2
  exact ⟨h2.1, elementsFine.ok h2.2.1, elementsFine.ok h2.2.2⟩

/-- IndexedLoadResult and IndexedStoreResult: each index width, the largest a group of eight registers. -/
theorem witness_IndexedLoadResult :
    wA.sized ∧ wA.memReady ∧ 8#5 ≠ 0#5 ∧ groupOk wA.cfg 8 wA.lmul8 wA.sew = true ∧ ∀ w ∈ [8, 16, 32, 64],
      groupOk wA.cfg 16 (wA.emul8 w) w = true ∧ overlapOk 8 wA.sew wA.lmul8 16 w (wA.emul8 w) = true ∧
        wA.elementsOk .load wA.sew wA.vlN (wA.maskOn false) (indexedAddr wA 11 16 w) := by
  have h : ∀ w ∈ [8, 16, 32, 64], (groupOk wA.cfg 16 (wA.emul8 w) w && (overlapOk 8 wA.sew wA.lmul8 16 w (wA.emul8 w) &&
      elementsFine wA .load wA.sew wA.vlN (wA.maskOn false) (indexedAddr wA 11 16 w))) = true := by decide +kernel
  refine ⟨wA_sized, wA_memReady, by decide, by decide +kernel, fun w hw => ?_⟩
  have h2 := h w hw
  simp only [Bool.and_eq_true] at h2
  exact ⟨h2.1, h2.2.1, elementsFine.ok h2.2.2⟩

theorem witness_IndexedStoreResult :
    wA.sized ∧ wA.memReady ∧ groupOk wA.cfg 8 wA.lmul8 wA.sew = true ∧ (∀ w ∈ [8, 16, 32, 64],
      groupOk wA.cfg 16 (wA.emul8 w) w = true ∧
        wA.elementsOk .store wA.sew wA.vlN (wA.maskOn false) (indexedAddr wA 11 16 w)) ∧
      (wA.vstartN ≤ 15 ∧ 15 < wA.vlN ∧ wA.maskOn false 15 = true ∧ 0 < wA.sew / 8 ∧ ¬ 15 + 1 < wA.vlN) := by
  have h : ∀ w ∈ [8, 16, 32, 64], (groupOk wA.cfg 16 (wA.emul8 w) w &&
      elementsFine wA .store wA.sew wA.vlN (wA.maskOn false) (indexedAddr wA 11 16 w)) = true := by decide +kernel
  refine ⟨wA_sized, wA_memReady, by decide +kernel, fun w hw => ?_, by decide +kernel⟩
  have h2 := h w hw
  simp only [Bool.and_eq_true] at h2
  exact ⟨h2.1, elementsFine.ok h2.2⟩

/-- The access at 0x1008 and above is refused; element 0 is inactive under the mask. -/
def wLimit : State := limit wA 0x1008 .accessFault

theorem wLimit_sized : wLimit.sized := ⟨by decide +kernel, by decide +kernel⟩
theorem wLimit_memReady : wLimit.memReady := ⟨rfl, by decide +kernel, by decide +kernel⟩

/-- The same under the policy `may_trim`. -/
def wTrim : State := { wLimit with cfg := { wLimit.cfg with ffTrim := .mayTrim } }

/-- FirstFaultLoadResult, each width: no element stops; the element at 0x1008 raises, under either policy; element 0
raises (misaligned for the widths above 8, refused for 8). -/
theorem witness_FirstFaultLoadResult :
    (wA.sized ∧ wA.memReady ∧ wA.vstartN < wA.vlN) ∧
      (∀ w ∈ [8, 16, 32, 64], groupOk wA.cfg 8 (wA.emul8 w) w = true ∧
        wA.elementsOk .load w wA.vlN (wA.maskOn true) (unitAddr wA 11 (w / 8))) ∧
      ∀ s ∈ [wLimit, wTrim], (s.sized ∧ s.memReady ∧ s.vstartN < s.vlN) ∧
        (∀ w ∈ [8, 16, 32, 64],
          s.raisesAt .load w s.vlN (s.maskOn true) (unitAddr s 11 (w / 8)) (64 / w) .loadAccessFault 0x1008) ∧
        ∀ w ∈ [16, 32, 64],
          s.raisesAt .load w s.vlN (s.maskOn true) (unitAddr s 13 (w / 8)) 0 .loadAddressMisaligned 0x1001 := by
  have h : ∀ w ∈ [8, 16, 32, 64], (groupOk wA.cfg 8 (wA.emul8 w) w &&
      elementsFine wA .load w wA.vlN (wA.maskOn true) (unitAddr wA 11 (w / 8))) = true := by decide +kernel
  have h1 : ∀ s ∈ [wLimit, wTrim], ∀ w ∈ [8, 16, 32, 64],
      raisesFine s .load w s.vlN (s.maskOn true) (unitAddr s 11 (w / 8)) (64 / w) .loadAccessFault 0x1008 = true := by
    decide +kernel
  have h0 : ∀ s ∈ [wLimit, wTrim], ∀ w ∈ [16, 32, 64],
      raisesFine s .load w s.vlN (s.maskOn true) (unitAddr s 13 (w / 8)) 0 .loadAddressMisaligned 0x1001 = true := by
    decide +kernel
  have hr : ∀ s ∈ [wLimit, wTrim], s.cfg.wf ∧ s.vlN ≤ s.vlmax ∧ s.vsEnabled = true ∧ s.vill = false ∧
      s.vstartN < s.vlmax ∧ s.vstartN < s.vlN := by decide +kernel
  refine ⟨⟨wA_sized, wA_memReady, by decide +kernel⟩, fun w hw => ?_, fun s hs =>
    ⟨?_, fun w hw => raisesFine.ok (h1 s hs w hw), fun w hw => raisesFine.ok (h0 s hs w hw)⟩⟩
  · have h2 := h w hw
    simp only [Bool.and_eq_true] at h2
    exact ⟨h2.1, elementsFine.ok h2.2⟩
  · obtain ⟨a, b, c, d, e, f⟩ := hr s hs
    exact ⟨⟨a, b⟩, ⟨c, d, e⟩, f⟩

/-- MaskLoadResult and the first clause of MaskAndWholeStoreResult. -/
theorem witness_MaskLoadResult :
    wA.sized ∧ wA.vsEnabled = true ∧ wA.vill = false ∧
      wA.elementsOk .load 8 ((wA.vlN + 7) / 8) (fun _ => true) (unitAddr wA 11 1) :=
  ⟨wA_sized, rfl, by decide +kernel, elementsFine.ok (by decide +kernel)⟩

/-- WholeLoadResult: every number of registers and every width, at the highest register each allows, from the reset
`vtype`. -/
theorem witness_WholeLoadResult :
    let s := small 0x80000000 0 [(11, 0x1000)] [] memA
    s.cfg.wf ∧ s.vsEnabled = true ∧ ∀ n ∈ [1, 2, 4, 8], ∀ w ∈ [8, 16, 32, 64],
      (24#5).toNat % n = 0 ∧ w ≤ s.cfg.elen ∧
        s.elementsOk .load w (n * s.cfg.vlen / w) (fun _ => true) (unitAddr s 11 (w / 8)) := by
  intro s
  have h : ∀ n ∈ [1, 2, 4, 8], ∀ w ∈ [8, 16, 32, 64], (decide ((24#5).toNat % n = 0 ∧ w ≤ s.cfg.elen) &&
      elementsFine s .load w (n * s.cfg.vlen / w) (fun _ => true) (unitAddr s 11 (w / 8))) = true := by decide +kernel
  refine ⟨by decide +kernel, rfl, fun n hn w hw => ?_⟩
  have h2 := h n hn w hw
  simp only [Bool.and_eq_true, decide_eq_true_eq] at h2
  exact ⟨h2.1.1, h2.1.2, elementsFine.ok h2.2⟩

/-- LoadTrapsAtElement: each width unit-stride and strided, and each index width, the element at 0x1008. -/
theorem witness_LoadTrapsAtElement :
    (wLimit.sized ∧ wLimit.memReady ∧ 8#5 ≠ 0#5) ∧ groupOk wLimit.cfg 8 wLimit.lmul8 wLimit.sew = true ∧
      ∀ w ∈ [8, 16, 32, 64],
        (groupOk wLimit.cfg 8 (wLimit.emul8 w) w = true ∧
          wLimit.raisesAt .load w wLimit.vlN (wLimit.maskOn true) (unitAddr wLimit 11 (w / 8)) (64 / w) .loadAccessFault
            0x1008 ∧
          wLimit.raisesAt .load w wLimit.vlN (wLimit.maskOn false) (stridedAddr wLimit 11 12) 1 .loadAccessFault 0x1008) ∧
        groupOk wLimit.cfg 24 (wLimit.emul8 w) w = true ∧ overlapOk 8 wLimit.sew wLimit.lmul8 24 w (wLimit.emul8 w) = true := by
  have h : ∀ w ∈ [8, 16, 32, 64], (groupOk wLimit.cfg 8 (wLimit.emul8 w) w &&
      (raisesFine wLimit .load w wLimit.vlN (wLimit.maskOn true) (unitAddr wLimit 11 (w / 8)) (64 / w) .loadAccessFault
          0x1008 &&
        (raisesFine wLimit .load w wLimit.vlN (wLimit.maskOn false) (stridedAddr wLimit 11 12) 1 .loadAccessFault 0x1008 &&
      (groupOk wLimit.cfg 24 (wLimit.emul8 w) w && overlapOk 8 wLimit.sew wLimit.lmul8 24 w (wLimit.emul8 w))))) = true := by
    decide +kernel
  refine ⟨⟨wLimit_sized, wLimit_memReady, by decide⟩, by decide +kernel, fun w hw => ?_⟩
  have h2 := h w hw
  simp only [Bool.and_eq_true] at h2
  exact ⟨⟨h2.1, raisesFine.ok h2.2.1, raisesFine.ok h2.2.2.1⟩, h2.2.2.2⟩

/-- The indices of `v16` as bytes reach 0x1008 at element 8; the wider indices, which are larger, at element 0, where
the access is the first. -/
theorem witness_LoadTrapsAtElement_indexed :
    wLimit.raisesAt .load wLimit.sew wLimit.vlN (wLimit.maskOn false) (indexedAddr wLimit 11 16 8) 8 .loadAccessFault
        0x1008 ∧
      wLimit.raisesAt .load wLimit.sew wLimit.vlN (wLimit.maskOn true) (indexedAddr wLimit 11 16 16) 0 .loadAccessFault
        0x1100 ∧
      wLimit.raisesAt .load wLimit.sew wLimit.vlN (wLimit.maskOn true) (indexedAddr wLimit 11 16 32) 0 .loadAccessFault
        0x03021100 ∧
      wLimit.raisesAt .load wLimit.sew wLimit.vlN (wLimit.maskOn true) (indexedAddr wLimit 11 16 64) 0 .loadAccessFault
        0x03021100 :=
  ⟨raisesFine.ok (by decide +kernel), raisesFine.ok (by decide +kernel), raisesFine.ok (by decide +kernel),
    raisesFine.ok (by decide +kernel)⟩

/-- LoadTrapsAtElement, the mask load at its second byte, the whole-register loads at 0x1008, each number of registers
and each width, and at a base that is not aligned. -/
theorem witness_LoadTrapsAtElement_whole :
    (let s := limit wA 0x1001 .pageFault;
      s.sized ∧ s.vsEnabled = true ∧ s.vill = false ∧
        s.raisesAt .load 8 ((s.vlN + 7) / 8) (fun _ => true) (unitAddr s 11 1) 1 .loadPageFault 0x1001) ∧
      (wLimit.cfg.wf ∧ wLimit.vsEnabled = true ∧ wLimit.cfg.misaligned = .trap) ∧
      (∀ n ∈ [1, 2, 4, 8], (24#5).toNat % n = 0) ∧
      (∀ w ∈ [8, 16, 32, 64], w ≤ wLimit.cfg.elen ∧ ∀ n ∈ [1, 2, 4, 8],
        wLimit.raisesAt .load w (n * wLimit.cfg.vlen / w) (fun _ => true) (unitAddr wLimit 11 (w / 8)) (64 / w)
          .loadAccessFault 0x1008) ∧
      ∀ w ∈ [16, 32, 64], (wLimit.readX 13).toNat % (w / 8) ≠ 0 ∧
        ∀ n ∈ [1, 2, 4, 8], wLimit.vstartN < n * wLimit.cfg.vlen / w := by
  refine ⟨⟨⟨by decide +kernel, by decide +kernel⟩, rfl, by decide +kernel, raisesFine.ok (by decide +kernel)⟩,
    by decide +kernel, by decide +kernel, fun w hw => ⟨?_, fun n hn => raisesFine.ok ?_⟩, by decide +kernel⟩
  · revert w; decide +kernel
  · revert n; revert w; decide +kernel

/-- LoadTrapsAtElement and StoreTrapsAtElement, what an access raises: a misaligned access under `trap`; under `perform`
one whose last byte alone is refused, and one refused as a whole across two regions; an aligned one, with either
answer. -/
theorem witness_AccessRaises :
    (wA.cfg.misaligned = .trap ∧ (0x1007 : XWord).toNat % 2 ≠ 0) ∧
      ∀ k ∈ [AccessKind.load, .store], ∀ f ∈ [Admit.accessFault, .pageFault],
        let s := { limit wA 0x1008 f with cfg := { (limit wA 0x1008 f).cfg with misaligned := .perform } }
        let r := { s with cfg := { s.cfg with regions := [⟨0, 0x1008, openMemory⟩, ⟨0x1008, 0x1000, openMemory⟩] } }
        (s.cfg.misaligned = .perform ∧ s.refusedAt k 0x1007 2 0x1008 ∧ memAdmits s.cfg 0x1007 2 k = f) ∧
          (r.refusedAt k 0x1007 2 0x1007 ∧ memAdmits r.cfg 0x1007 2 k = f) ∧
          s.refusedAt k 0x1008 2 0x1008 ∧ memAdmits s.cfg 0x1008 2 k = f := by
  refine ⟨by decide +kernel, fun k hk f hf => ?_⟩
  refine ⟨⟨rfl, faultAddress_eq.mp ?_, ?_⟩, ⟨faultAddress_eq.mp ?_, ?_⟩, faultAddress_eq.mp ?_, ?_⟩ <;>
    (revert f; revert k; decide +kernel)

/-- MaskAndWholeStoreResult: the mask store, and each number of registers. -/
theorem witness_MaskAndWholeStoreResult :
    wA.vsEnabled = true ∧ wA.vill = false ∧
      wA.elementsOk .store 8 ((wA.vlN + 7) / 8) (fun _ => true) (unitAddr wA 11 1) ∧
      ∀ n ∈ [1, 2, 4, 8], (24#5).toNat % n = 0 ∧
        wA.elementsOk .store 8 (n * wA.cfg.vlen / 8) (fun _ => true) (unitAddr wA 11 1) := by
  have h : ∀ n ∈ [1, 2, 4, 8], (decide ((24#5).toNat % n = 0) &&
      elementsFine wA .store 8 (n * wA.cfg.vlen / 8) (fun _ => true) (unitAddr wA 11 1)) = true := by decide +kernel
  refine ⟨rfl, by decide +kernel, elementsFine.ok (by decide +kernel), fun n hn => ?_⟩
  have h2 := h n hn
  simp only [Bool.and_eq_true, decide_eq_true_eq] at h2
  exact ⟨h2.1, elementsFine.ok h2.2⟩

/-- StoreTrapsAtElement: as for the loads. -/
theorem witness_StoreTrapsAtElement :
    (wLimit.sized ∧ wLimit.memReady) ∧ groupOk wLimit.cfg 8 wLimit.lmul8 wLimit.sew = true ∧
      ∀ w ∈ [8, 16, 32, 64],
        (groupOk wLimit.cfg 8 (wLimit.emul8 w) w = true ∧
          wLimit.raisesAt .store w wLimit.vlN (wLimit.maskOn true) (unitAddr wLimit 11 (w / 8)) (64 / w)
            .storeAccessFault 0x1008 ∧
          wLimit.raisesAt .store w wLimit.vlN (wLimit.maskOn false) (stridedAddr wLimit 11 12) 1 .storeAccessFault
            0x1008) ∧
        groupOk wLimit.cfg 16 (wLimit.emul8 w) w = true := by
  have h : ∀ w ∈ [8, 16, 32, 64], (groupOk wLimit.cfg 8 (wLimit.emul8 w) w &&
      (raisesFine wLimit .store w wLimit.vlN (wLimit.maskOn true) (unitAddr wLimit 11 (w / 8)) (64 / w) .storeAccessFault
          0x1008 &&
        (raisesFine wLimit .store w wLimit.vlN (wLimit.maskOn false) (stridedAddr wLimit 11 12) 1 .storeAccessFault
          0x1008 && groupOk wLimit.cfg 16 (wLimit.emul8 w) w))) = true := by decide +kernel
  refine ⟨⟨wLimit_sized, wLimit_memReady⟩, by decide +kernel, fun w hw => ?_⟩
  have h2 := h w hw
  simp only [Bool.and_eq_true] at h2
  exact ⟨⟨h2.1, raisesFine.ok h2.2.1, raisesFine.ok h2.2.2.1⟩, h2.2.2.2⟩

theorem witness_StoreTrapsAtElement_indexed :
    wLimit.raisesAt .store wLimit.sew wLimit.vlN (wLimit.maskOn false) (indexedAddr wLimit 11 16 8) 8 .storeAccessFault
        0x1008 ∧
      wLimit.raisesAt .store wLimit.sew wLimit.vlN (wLimit.maskOn true) (indexedAddr wLimit 11 16 16) 0 .storeAccessFault
        0x1100 ∧
      wLimit.raisesAt .store wLimit.sew wLimit.vlN (wLimit.maskOn true) (indexedAddr wLimit 11 16 32) 0 .storeAccessFault
        0x03021100 ∧
      wLimit.raisesAt .store wLimit.sew wLimit.vlN (wLimit.maskOn true) (indexedAddr wLimit 11 16 64) 0 .storeAccessFault
        0x03021100 :=
  ⟨raisesFine.ok (by decide +kernel), raisesFine.ok (by decide +kernel), raisesFine.ok (by decide +kernel),
    raisesFine.ok (by decide +kernel)⟩

/-- StoreTrapsAtElement, the mask store at its second byte and the whole-register stores at 0x1008. -/
theorem witness_StoreTrapsAtElement_whole :
    (let s := limit wA 0x1001 .pageFault;
      s.vsEnabled = true ∧ s.vill = false ∧
        s.raisesAt .store 8 ((s.vlN + 7) / 8) (fun _ => true) (unitAddr s 11 1) 1 .storePageFault 0x1001) ∧
      wLimit.vsEnabled = true ∧ ∀ n ∈ [1, 2, 4, 8], (24#5).toNat % n = 0 ∧
        wLimit.raisesAt .store 8 (n * wLimit.cfg.vlen / 8) (fun _ => true) (unitAddr wLimit 11 1) 8
          .storeAccessFault 0x1008 := by
  refine ⟨⟨rfl, by decide +kernel, raisesFine.ok (by decide +kernel)⟩, rfl, fun n hn => ⟨?_, raisesFine.ok ?_⟩⟩
  · revert n; decide +kernel
  · revert n; decide +kernel

/-- `outsideAt` as a check. -/
def outsideFine (s : State) (k : AccessKind) (W body : Nat) (on : Nat → Bool) (addr : Nat → XWord) (i : Nat) : Bool :=
  decide (s.vstartN ≤ i) && decide (i < body) && on i && decide ((addr i).toNat % (W / 8) = 0) &&
    decide (memAdmits s.cfg (addr i).toNat (W / 8) k = .ok) &&
    !(attrAt s.cfg (addr i).toNat (W / 8)).idempotent && elementsFine s k W i on addr

theorem outsideFine.ok {s : State} {k : AccessKind} {W body : Nat} {on : Nat → Bool} {addr : Nat → XWord} {i : Nat}
    (h : outsideFine s k W body on addr i = true) : s.outsideAt k W body on addr i := by
  simp only [outsideFine, Bool.and_eq_true, decide_eq_true_eq, Bool.not_eq_true'] at h
  exact ⟨h.1.1.1.1.1.1, h.1.1.1.1.1.2, h.1.1.1.1.2, .inl h.1.1.1.2, h.1.1.2, h.1.2, elementsFine.ok h.2⟩

/-- A device from an address up. -/
def device (l : Nat) : State :=
  { wA with
    cfg := { wA.cfg with
      regions := [⟨0, l, openMemory⟩]
      elsewhere := { openMemory with idempotent := false } } }

def wDevice : State := device 0x1008

theorem wDevice_sized : wDevice.sized := ⟨by decide +kernel, by decide +kernel⟩
theorem wDevice_memReady : wDevice.memReady := ⟨rfl, by decide +kernel, by decide +kernel⟩

/-- NonMainMemoryRefused: the element at 0x1008 is the first outside main memory, for each width unit-stride and
strided; a fault-only-first load meets the hypotheses of the unit-stride one. -/
theorem witness_NonMainMemoryRefused :
    (wDevice.sized ∧ wDevice.memReady) ∧ ∀ w ∈ [8, 16, 32, 64], groupOk wDevice.cfg 8 (wDevice.emul8 w) w = true ∧
      ∀ k ∈ [AccessKind.load, .store],
        wDevice.outsideAt k w wDevice.vlN (wDevice.maskOn true) (unitAddr wDevice 11 (w / 8)) (64 / w) ∧
          wDevice.outsideAt k w wDevice.vlN (wDevice.maskOn false) (stridedAddr wDevice 11 12) 1 := by
  have h : ∀ w ∈ [8, 16, 32, 64], ∀ k ∈ [AccessKind.load, .store],
      (outsideFine wDevice k w wDevice.vlN (wDevice.maskOn true) (unitAddr wDevice 11 (w / 8)) (64 / w) &&
        outsideFine wDevice k w wDevice.vlN (wDevice.maskOn false) (stridedAddr wDevice 11 12) 1) = true := by
    decide +kernel
  refine ⟨⟨wDevice_sized, wDevice_memReady⟩, fun w hw => ⟨?_, fun k hk => ?_⟩⟩
  · revert w; decide +kernel
  · have h2 := h w hw k hk
    simp only [Bool.and_eq_true] at h2
    exact ⟨outsideFine.ok h2.1, outsideFine.ok h2.2⟩

/-- The indexed forms, each index width: element 8 for byte indices, element 0 for the wider ones. -/
theorem witness_NonMainMemoryRefused_indexed :
    groupOk wDevice.cfg 8 wDevice.lmul8 wDevice.sew = true ∧
      ∀ p ∈ [(8, 8), (16, 0), (32, 0), (64, 0)], groupOk wDevice.cfg 16 (wDevice.emul8 p.1) p.1 = true ∧
        overlapOk 8 wDevice.sew wDevice.lmul8 16 p.1 (wDevice.emul8 p.1) = true ∧
        ∀ k ∈ [AccessKind.load, .store],
          wDevice.outsideAt k wDevice.sew wDevice.vlN (wDevice.maskOn true) (indexedAddr wDevice 11 16 p.1) p.2 := by
  have h : ∀ p ∈ [(8, 8), (16, 0), (32, 0), (64, 0)], ∀ k ∈ [AccessKind.load, .store],
      outsideFine wDevice k wDevice.sew wDevice.vlN (wDevice.maskOn true) (indexedAddr wDevice 11 16 p.1) p.2 = true := by
    decide +kernel
  refine ⟨by decide +kernel, fun p hp => ⟨?_, ?_, fun k hk => outsideFine.ok (h p hp k hk)⟩⟩ <;>
    (revert p; decide +kernel)

/-- The mask forms at their second byte, and the whole-register forms at 0x1008. -/
theorem witness_NonMainMemoryRefused_whole :
    ((device 0x1001).sized ∧ (device 0x1001).vsEnabled = true ∧ (device 0x1001).vill = false) ∧
      (∀ k ∈ [AccessKind.load, .store],
        (device 0x1001).outsideAt k 8 (((device 0x1001).vlN + 7) / 8) (fun _ => true) (unitAddr (device 0x1001) 11 1) 1) ∧
      (∀ n ∈ [1, 2, 4, 8], (24#5).toNat % n = 0) ∧
      (∀ w ∈ [8, 16, 32, 64], w ≤ wDevice.cfg.elen ∧ ∀ n ∈ [1, 2, 4, 8],
        wDevice.outsideAt .load w (n * wDevice.cfg.vlen / w) (fun _ => true) (unitAddr wDevice 11 (w / 8)) (64 / w)) ∧
      ∀ n ∈ [1, 2, 4, 8],
        wDevice.outsideAt .store 8 (n * wDevice.cfg.vlen / 8) (fun _ => true) (unitAddr wDevice 11 1) 8 := by
  refine ⟨⟨⟨by decide +kernel, by decide +kernel⟩, rfl, by decide +kernel⟩, fun k hk => outsideFine.ok ?_,
    by decide +kernel, fun w hw => ⟨?_, fun n hn => outsideFine.ok ?_⟩, fun n hn => outsideFine.ok ?_⟩
  · revert k; decide +kernel
  · revert w; decide +kernel
  · revert n; revert w; decide +kernel
  · revert n; decide +kernel

/-- LittleEndianMemory: an 8-byte element at the last byte of the address space, and a width of no byte. -/
theorem witness_LittleEndianMemory :
    (8 ∣ 64 ∧ 64 / 8 ≤ 2 ^ wA.cfg.xbits) ∧ 8 ∣ 0 ∧ 7 < 64 / 8 ∧
      (∀ k < 64 / 8, 0x1000 ≠ ((0xFFFFFFFF : XWord).toNat + k) % 2 ^ wA.cfg.xbits) := by decide +kernel

end Sys2Proof.Tests
end

section
/-! PROOFS. The statements about the scope of the model: the step runs what the fetch decodes, no step changes a
parameter, VLMAX is exact, and memory is little-endian. -/

open Sys2Proof Sys2Proof.Machine Sys2Proof.Config

namespace Sys2Proof.Machine

/-! ### What no step writes (R8, R50, R51, R356, R365) -/

/-- The part of the state that neither an instruction in scope nor a trap writes: the parameters, the fixed-point
CSRs, the trap configuration, `misa` and the status of the other units. -/
def State.fixedPart (s : State) :
    Params × BitVec 1 × BitVec 2 × XWord × XWord × XWord × XWord × VsStatus × VsStatus :=
  (s.cfg, s.vxsat, s.vxrm, s.mtvec, s.stvec, s.medeleg, s.misa, s.mstatus.fs, s.mstatus.xs)

theorem State.fixedPart_eq_iff {s t : State} :
    t.fixedPart = s.fixedPart ↔
      t.cfg = s.cfg ∧ t.vxsat = s.vxsat ∧ t.vxrm = s.vxrm ∧ t.mtvec = s.mtvec ∧ t.stvec = s.stvec ∧
        t.medeleg = s.medeleg ∧ t.misa = s.misa ∧ t.mstatus.fs = s.mstatus.fs ∧ t.mstatus.xs = s.mstatus.xs := by
  simp only [State.fixedPart, Prod.mk.injEq]

@[simp] theorem State.fixedPart_complete (s : State) : s.complete.fixedPart = s.fixedPart := rfl

@[simp] theorem State.fixedPart_takeTrap (s : State) (c : Cause) (tval : XWord) :
    (s.takeTrap c tval).fixedPart = s.fixedPart := by simp [State.fixedPart]

@[simp] theorem State.fixedPart_elemTrap (s : State) (i : Nat) (c : Cause) (tval : XWord) :
    (s.elemTrap i c tval).fixedPart = s.fixedPart := by simp [State.fixedPart]

@[simp] theorem State.fixedPart_illegal (s : State) (insn : InsnWord) :
    (s.illegal insn).fixedPart = s.fixedPart := State.fixedPart_takeTrap s _ _

@[simp] theorem State.fixedPart_storeBytes (s : State) (ws : List (Nat × Byte)) :
    (s.storeBytes ws).fixedPart = s.fixedPart := rfl

@[simp] theorem State.fixedPart_writeX (s : State) (r : RegNo) (a : XWord) :
    (s.writeX r a).fixedPart = s.fixedPart := by simp [State.fixedPart]

@[simp] theorem State.fixedPart_with_v (s : State) (f : VFile) :
    ({ s with v := f } : State).fixedPart = s.fixedPart := rfl

@[simp] theorem State.fixedPart_with_v_vl (s : State) (f : VFile) (l : XWord) :
    ({ s with v := f, vl := l } : State).fixedPart = s.fixedPart := rfl

@[simp] theorem State.fixedPart_with_vl_vtype (s : State) (l ty : XWord) :
    ({ s with vl := l, vtype := ty } : State).fixedPart = s.fixedPart := rfl

section

variable {s t : State} {insn : InsnWord}

theorem RegsRan.fixedPart_eq {loads : Bool} (h : RegsRan loads s insn t) : t.fixedPart = s.fixedPart := by
  cases h <;> simp

theorem FirstRan.fixedPart_eq (h : FirstRan s insn t) : t.fixedPart = s.fixedPart := by
  cases h with
  | regs h => exact h.fixedPart_eq
  | trimmed => simp

theorem StoreRan.fixedPart_eq (h : StoreRan s insn t) : t.fixedPart = s.fixedPart := by
  cases h <;> simp

theorem SetRan.fixedPart_eq (h : SetRan s insn t) : t.fixedPart = s.fixedPart := by
  cases h <;> simp

/-- Whatever its kind, an instruction leaves the fixed part alone. -/
theorem RanAs.fixedPart_eq {k : Kind} (h : RanAs k s insn t) : t.fixedPart = s.fixedPart := by
  cases k with
  | config => exact SetRan.fixedPart_eq h
  | arith | load | maskLoad | wholeLoad => exact RegsRan.fixedPart_eq h
  | first => exact FirstRan.fixedPart_eq h
  | store | maskStore | wholeStore => exact StoreRan.fixedPart_eq h

end

/-- A step leaves the fixed part alone: a trap of the fetch, a reserved word and every instruction do. -/
theorem step_fixedPart_eq {s t : State} (hl : s.vlN ≤ s.cfg.vlen) (h : step s = .next t) :
    t.fixedPart = s.fixedPart := by
  obtain ⟨hc, ⟨c, rfl, -⟩ | ⟨w, rfl⟩ | ⟨i, hi, -⟩⟩ := step_next_cases h
  · exact State.fixedPart_takeTrap s c s.pc
  · exact State.fixedPart_illegal s w
  · exact (exec_ran hc hl hi).fixedPart_eq

/-! ### The step behind a fetch that succeeds (R110) -/

theorem step_eq_of_fetch {s : State} {w : InsnWord} (hc : s.cfg.wf) (h : fetch s = .word w) :
    step s = runDecoded s w (decodeWord w) := by
  rw [step, if_pos hc, h]

/-! ### VLMAX (R33 to R35) -/

/-- Where VLMAX is not zero the division of R35 is exact: numerator and denominator are powers of two. -/
theorem vlmaxOf_mul {c : Params} {vsew vlmul : BitVec 3} (h4 : vlmul ≠ 0b100#3) (h : 1 ≤ vlmaxOf c vsew vlmul) :
    vlmaxOf c vsew vlmul * (8 * sewOf vsew) = lmul8Of vlmul * c.vlen := by
  obtain ⟨k, -, hk⟩ := lmul8Of_eq h4
  have hnum : lmul8Of vlmul * c.vlen = 2 ^ (k + c.lgVlen) := by rw [hk, Nat.pow_add]; rfl
  have hden : 8 * sewOf vsew = 2 ^ (3 + (3 + vsew.toNat)) := by rw [sewOf_eq, Nat.pow_add 2 3 (3 + _)]
  have hle : 8 * sewOf vsew ≤ lmul8Of vlmul * c.vlen :=
    (Nat.one_le_div_iff (Nat.mul_pos (by decide) (sewOf_pos vsew))).mp h
  refine Nat.div_mul_cancel ?_
  rw [hnum, hden] at hle ⊢
  exact Nat.pow_dvd_pow 2 ((Nat.pow_le_pow_iff_right (by decide)).mp hle)

theorem sewOf_eq_shiftLeft (vsew : BitVec 3) : sewOf vsew = 8 <<< vsew.toNat := (Nat.shiftLeft_eq ..).symm

/-- LMUL is 2 to the signed `vlmul`, but for the reserved setting (R34). -/
theorem lmul8Of_eq_pow_toInt {vlmul : BitVec 3} (h : vlmul ≠ 0b100#3) :
    (lmul8Of vlmul : ℤ) = 2 ^ (3 + vlmul.toInt).toNat := by
  revert h; revert vlmul; decide

/-! ### Little-endian memory (R62) -/

theorem Mem.readLE_lt (c : Params) (m : Mem) (a n : Nat) : Mem.readLE c m a n < 2 ^ (8 * n) := by
  induction n generalizing a with
  | zero => exact Nat.one_pos
  | succ n ih =>
    have hb := (Mem.read m (a % 2 ^ c.xbits)).isLt
    have ht := ih (a + 1)
    rw [Mem.readLE, Nat.mul_succ, Nat.pow_add]
    omega

/-- Byte `k` of the value of `n` bytes read from `a` is the byte at `a + k`. -/
theorem Mem.readLE_byte (c : Params) (m : Mem) {n k : Nat} (hk : k < n) (a : Nat) :
    Mem.readLE c m a n / 2 ^ (8 * k) % 2 ^ 8 = (Mem.read m ((a + k) % 2 ^ c.xbits)).toNat := by
  induction n generalizing a k with
  | zero => omega
  | succ n ih =>
    have hb := (Mem.read m (a % 2 ^ c.xbits)).isLt
    rw [Mem.readLE]
    cases k with
    | zero => simp only [Nat.mul_zero, Nat.pow_zero, Nat.add_zero]; omega
    | succ k =>
      have hdiv : ((Mem.read m (a % 2 ^ c.xbits)).toNat + 256 * Mem.readLE c m (a + 1) n) / 2 ^ 8 =
          Mem.readLE c m (a + 1) n := by omega
      rw [Nat.mul_succ, Nat.add_comm (8 * k), Nat.pow_add, ← Nat.div_div_eq_div_mul, hdiv, ih (by omega),
        Nat.add_right_comm, Nat.add_assoc]

theorem toNat_byteOf {W : Nat} (val : BitVec W) (k : Nat) :
    (byteOf val k).toNat = val.toNat / 2 ^ (8 * k) % 2 ^ 8 := by
  rw [byteOf, BitVec.extractLsb'_toNat, Nat.shiftRight_eq_div_pow]

/-- Byte `k` of the element read at `a` is the byte at `a + k`. -/
theorem byteOf_loadElem (s : State) {W k : Nat} (a : XWord) (hW : 8 ∣ W) (hk : k < W / 8) :
    byteOf (loadElem s W a) k = Mem.read s.mem ((a.toNat + k) % 2 ^ s.cfg.xbits) := by
  have hlt := Mem.readLE_lt s.cfg s.mem a.toNat (W / 8)
  rw [Nat.mul_div_cancel' hW] at hlt
  apply BitVec.eq_of_toNat_eq
  rw [toNat_byteOf, loadElem, BitVec.toNat_ofNat, Nat.mod_eq_of_lt hlt, Mem.readLE_byte s.cfg s.mem hk]

/-- Two values of whole bytes with the same bytes are the same. -/
theorem eq_of_byteOf_eq {W : Nat} (hW : 8 ∣ W) {a b : BitVec W} (h : ∀ k < W / 8, byteOf a k = byteOf b k) :
    a = b := by
  apply BitVec.eq_of_getLsbD_eq
  intro j hj
  have hbit := congrArg (·.getLsbD (j % 8)) (h (j / 8) (by omega))
  simpa [byteOf, BitVec.getLsbD_extractLsb', Nat.mod_lt, Nat.div_add_mod] using hbit

/-- The bytes of one element go to different addresses. -/
theorem add_mod_two_pow_inj {n a k j : Nat} (hk : k < 2 ^ n) (hj : j < 2 ^ n)
    (h : (a + k) % 2 ^ n = (a + j) % 2 ^ n) : k = j :=
  Nat.ModEq.eq_of_lt_of_lt (Nat.ModEq.add_left_cancel' a h) hk hj

/-- After the bytes of a value are stored, byte `k` of it is at `a + k`. -/
theorem Mem.read_writes_elemBytes (c : Params) (m : Mem) (a : XWord) {W k : Nat} (val : BitVec W)
    (hW : W / 8 ≤ 2 ^ c.xbits) (hk : k < W / 8) :
    Mem.read (Mem.writes m (elemBytes c a val)) ((a.toNat + k) % 2 ^ c.xbits) = byteOf val k := by
  have hmem : ((a.toNat + k) % 2 ^ c.xbits, byteOf val k) ∈ elemBytes c a val := mem_elemBytes.mpr ⟨k, hk, rfl⟩
  obtain ⟨j, hj, he⟩ := mem_elemBytes.mp (Mem.read_writes_of_mem (m := m) ⟨_, hmem, rfl⟩)
  obtain ⟨haddr, hbyte⟩ := Prod.mk.inj he
  rw [hbyte, add_mod_two_pow_inj (hk.trans_le hW) (hj.trans_le hW) haddr]

end Sys2Proof.Machine

/-- Settles O14: no form a next state can take touches the part of the state named here. -/
theorem stepKeepsParametersAndFixedPoint : Obligations.StepKeepsParametersAndFixedPoint :=
  fun _ _ hl h => State.fixedPart_eq_iff.mp (step_fixedPart_eq hl h)

/-- Settles O37: VLMAX being at least 1 makes the division of R35 exact. -/
theorem vlmaxIsExact : Obligations.VlmaxIsExact := by
  intro c vsew vlmul hc h
  obtain ⟨-, h4, -, -⟩ := supportsVtype_iff.mp h
  have hmax := one_le_vlmaxOf hc h
  exact ⟨vlmaxOf_mul h4 hmax, hmax, vlmaxOf_le c vsew vlmul, sewOf_eq_shiftLeft vsew, lmul8Of_eq_pow_toInt h4⟩

/-- Settles O60: the element read back has, byte for byte, the bytes that were stored. -/
theorem littleEndianMemory : Obligations.LittleEndianMemory := by
  intro s W a val hW hle
  refine ⟨fun k hk => byteOf_loadElem s a hW hk, eq_of_byteOf_eq hW fun k hk => ?_, fun x hx => ?_⟩
  · rw [byteOf_loadElem _ a hW hk]
    exact Mem.read_writes_elemBytes s.cfg s.mem a val hle hk
  · refine Mem.read_writes_of_not_mem fun p hp => ?_
    obtain ⟨k, hk, rfl⟩ := mem_elemBytes.mp hp
    exact (hx k hk).symm

/-- Settles O5: the fetch gives the word of the four bytes at `pc`, and the step runs what it decodes to. -/
theorem stepRunsDecodedInstruction : Obligations.StepRunsDecodedInstruction := by
  intro s i hc hal hadm hidem hsync hdec
  rw [step_eq_of_fetch hc (fetch_eq hal hadm hidem hsync)]
  exact congrArg (runDecoded s _) hdec

end

section
/-! PROOFS. The statements about the state: what every step keeps, which instruction writes what, and when an
instruction stops before it changes anything. -/

open Sys2Proof Sys2Proof.Machine Sys2Proof.Config

namespace Sys2Proof.Machine

/-! ### How an instruction ends (R22, R350, R352) -/

/-- The memory exceptions an instruction of a kind may raise (R351). -/
def Kind.mayRaise (k : Kind) (c : Cause) : Prop :=
  ((k = .load ∨ k = .first ∨ k = .maskLoad ∨ k = .wholeLoad) ∧ memoryCause .load c) ∨
    (k.stores = true ∧ memoryCause .store c)

/-- An IllegalInstruction is no memory exception. -/
theorem not_memoryCause_illegalInstruction (k : AccessKind) : ¬ memoryCause k .illegalInstruction := by
  cases k <;> simp [memoryCause, misalignedCause, accessFaultCause, pageFaultCause]

theorem Kind.not_mayRaise_illegalInstruction (k : Kind) : ¬ k.mayRaise .illegalInstruction := by
  rintro (⟨-, h⟩ | ⟨-, h⟩) <;> exact not_memoryCause_illegalInstruction _ h

theorem Cause.code_lt (e : Cause) (c : Params) : (BitVec.ofNat 64 e.code).toNat < 2 ^ c.xbits := by
  have h : (BitVec.ofNat 64 e.code).toNat < 2 ^ 32 := by cases e <;> decide
  exact h.trans_le (Nat.pow_le_pow_right (by decide) (by unfold Params.xbits; cases c.xlen <;> decide))

/-- Whatever the mode it is taken to, a trap goes to the base of a trap vector (R356). -/
theorem TookTrap.pc_eq {s t : State} {c : Cause} {tval : XWord} (h : TookTrap s t c tval) :
    ∃ a, t.pc = tvecBase s.cfg a := by
  cases hd : s.delegated c with
  | false => obtain ⟨-, -, -, -, hpc, -⟩ := h.machine hd; exact ⟨_, hpc⟩
  | true => obtain ⟨-, -, -, -, hpc, -⟩ := h.supervisor hd; exact ⟨_, hpc⟩

/-- The three ends of an instruction of kind `k` with word `insn`: it completes, it raises IllegalInstruction having
changed nothing, or it takes a memory exception of its kind with an XLEN-bit trap value. -/
inductive Ended (k : Kind) (s : State) (insn : InsnWord) (t : State) : Prop
  | completed (h : Completed s t)
  | illegal (h : t = s.illegal insn)
  | trapped (c : Cause) (tval : XWord) (h : TookTrap s t c tval) (hk : k.mayRaise c)
      (htval : tval.toNat < 2 ^ s.cfg.xbits)

theorem completed_complete_self (s : State) : Completed s s.complete := by constructor <;> rfl

section

variable {s t : State} {insn : InsnWord} {k : Kind}

theorem RegsRan.ended {loads : Bool}
    (hk : loads = true → k = .load ∨ k = .first ∨ k = .maskLoad ∨ k = .wholeLoad) (h : RegsRan loads s insn t) :
    Ended k s insn t := by
  cases h with
  | nothing => exact .completed (completed_complete_self s)
  | written => exact .completed (by constructor <;> rfl)
  | trapped hload b W n g hW i hi c tval hcause htval =>
    exact .trapped c tval (by apply tookTrap_elemTrap <;> rfl) (.inl ⟨hk hload, hcause⟩) htval
  | illegal => exact .illegal rfl

theorem FirstRan.ended (h : FirstRan s insn t) : Ended .first s insn t := by
  cases h with
  | regs h => exact h.ended (by simp)
  | trimmed => exact .completed (by constructor <;> rfl)

theorem StoreRan.ended (hk : k.stores = true) (h : StoreRan s insn t) : Ended k s insn t := by
  cases h with
  | nothing => exact .completed (completed_complete_self s)
  | stored => exact .completed (by constructor <;> rfl)
  | trapped ws hw i hi c tval hcause htval =>
    exact .trapped c tval (by apply tookTrap_elemTrap <;> rfl) (.inr ⟨hk, hcause⟩) htval
  | illegal => exact .illegal rfl

theorem SetRan.ended (h : SetRan s insn t) : Ended k s insn t := by
  cases h with
  | set => exact .completed (by constructor <;> simp)
  | illegal => exact .illegal rfl

theorem RanAs.ended (h : RanAs k s insn t) : Ended k s insn t := by
  cases k with
  | config => exact SetRan.ended h
  | arith => exact RegsRan.ended (by simp) h
  | load | maskLoad | wholeLoad => exact RegsRan.ended (by simp) h
  | first => exact FirstRan.ended h
  | store | maskStore | wholeStore => exact StoreRan.ended rfl h

/-- An instruction that reports an IllegalInstruction took that end. -/
theorem Ended.eq_illegal {tval epc : XWord} (h : Ended k s insn t)
    (hr : t.report = some ⟨.illegalInstruction, tval, epc⟩) : t = s.illegal insn := by
  cases h with
  | completed h => rw [h.report] at hr; cases hr
  | illegal h => exact h
  | trapped c tval' h hk =>
    rw [h.report] at hr
    injection hr with hr
    injection hr with hcause
    exact absurd (hcause ▸ hk) k.not_mayRaise_illegalInstruction

end

/-- A step ends as an instruction does, or in a trap of the fetch: it completes, which it does from an aligned `pc`
only, or it takes a trap, whose value holds XLEN bits where `pc` does. -/
theorem step_ended {s t : State} (hl : s.vlN ≤ s.cfg.vlen) (h : step s = .next t) :
    (fetchAligned s = true ∧ Completed s t) ∨
      ∃ c tval, TookTrap s t c tval ∧ (s.pc.toNat < 2 ^ s.cfg.xbits → tval.toNat < 2 ^ s.cfg.xbits) := by
  have hillegal : ∀ w, ∃ c tval, TookTrap s (s.illegal w) c tval ∧
      (s.pc.toNat < 2 ^ s.cfg.xbits → tval.toNat < 2 ^ s.cfg.xbits) :=
    fun w => ⟨_, _, tookTrap_takeTrap s _ _, fun _ => insn_lt _ _⟩
  obtain ⟨hc, ⟨c, rfl, -⟩ | ⟨w, rfl⟩ | ⟨i, hi, hal⟩⟩ := step_next_cases h
  · exact .inr ⟨c, s.pc, tookTrap_takeTrap s _ _, id⟩
  · exact .inr (hillegal w)
  · cases (exec_ran hc hl hi).ended with
    | completed h => exact .inl ⟨hal, h⟩
    | illegal h => subst h; exact .inr (hillegal _)
    | trapped c tval h hk htval => exact .inr ⟨c, tval, h, fun _ => htval⟩

/-! ### `vl` and `vtype` (R30 to R32) -/

section

variable {s t : State} {insn : InsnWord} {k : Kind}

theorem RegsRan.sameVtype {loads : Bool} (h : RegsRan loads s insn t) : SameVtype s t := by
  cases h <;> exact ⟨by simp, by simp⟩

theorem StoreRan.sameVtype (h : StoreRan s insn t) : SameVtype s t := by
  cases h <;> exact ⟨by simp, by simp⟩

/-- A fault-only-first load leaves `vtype` alone and never raises `vl` (R284). -/
theorem FirstRan.vtype_eq_and_vlN_le (h : FirstRan s insn t) : t.vtype = s.vtype ∧ t.vlN ≤ s.vlN := by
  cases h with
  | regs h => exact ⟨h.sameVtype.2, by rw [State.vlN, h.sameVtype.1]; rfl⟩
  | trimmed b W n g hW limit hle =>
    refine ⟨rfl, le_trans ?_ hle⟩
    show (BitVec.ofNat 64 limit).toNat ≤ limit
    rw [BitVec.toNat_ofNat]
    exact Nat.mod_le _ _

/-- Beside the configuration instructions and the fault-only-first loads nothing writes `vl` or `vtype`. -/
theorem RanAs.sameVtype (h1 : k ≠ .config) (h2 : k ≠ .first) (h : RanAs k s insn t) : SameVtype s t := by
  cases k with
  | config => exact absurd rfl h1
  | first => exact absurd rfl h2
  | arith | load | maskLoad | wholeLoad => exact RegsRan.sameVtype h
  | store | maskStore | wholeStore => exact StoreRan.sameVtype h

/-- Beside the configuration instructions nothing writes `vtype`, and nothing raises `vl`. -/
theorem RanAs.vtype_eq_and_vlN_le (hk : k ≠ .config) (h : RanAs k s insn t) :
    t.vtype = s.vtype ∧ t.vlN ≤ s.vlN := by
  by_cases hf : k = .first
  · subst hf; exact FirstRan.vtype_eq_and_vlN_le h
  · obtain ⟨hvl, hvtype⟩ := h.sameVtype hk hf
    exact ⟨hvtype, by rw [State.vlN, hvl]; rfl⟩

theorem RanAs.cfg_eq (h : RanAs k s insn t) : t.cfg = s.cfg := (State.fixedPart_eq_iff.mp h.fixedPart_eq).1

/-- A `vl` that does not grow keeps the setting legal. -/
theorem State.vtypeLegal.of_vlN_le (h : s.vtypeLegal) (hvl : t.vlN ≤ s.vlN) (hvtype : t.vtype = s.vtype)
    (hcfg : t.cfg = s.cfg) : t.vtypeLegal := by
  have hsame : ({ s with vl := t.vl } : State).vtypeLegal := by
    rcases h with ⟨h1, h2, h3⟩ | ⟨h1, h2, h3, h4⟩
    · have h0 : s.vlN = 0 := by rw [State.vlN, h3]; rfl
      exact .inl ⟨h1, h2, BitVec.eq_of_toNat_eq (Nat.le_zero.mp (h0 ▸ hvl))⟩
    · exact .inr ⟨h1, h2, h3, hvl.trans h4⟩
  exact hsame.of_eq rfl hvtype hcfg

/-- Bit XLEN-1 is above the eight low bits. -/
theorem fieldVill_eq_false (c : Params) {a : XWord} (h : a.toNat < 256) : fieldVill c a = false := by
  have hle : 256 ≤ 2 ^ (c.xbits - 1) := by unfold Params.xbits; cases c.xlen <;> decide
  exact Nat.testBit_lt_two_pow (h.trans_le hle)

/-- What a configuration instruction sets is legal (R32, R133, R134). -/
theorem State.vtypeLegal_of_vsetResult {rd : RegNo} {sel : AvlSel} {cand : XWord} (hcfg : t.cfg = s.cfg)
    (hvl : t.vl = (vsetResult s rd sel cand).1) (hvtype : t.vtype = (vsetResult s rd sel cand).2) : t.vtypeLegal := by
  rcases vsetResult_cases s rd sel cand with hr | ⟨hok, avl, -, hr⟩
  · rw [hr] at hvl hvtype
    refine .inl ⟨?_, hcfg ▸ hvtype, hvl⟩
    rw [State.vill, fieldVill, hvtype, hcfg, BitVec.getLsbD_twoPow]
    cases hx : s.cfg.xlen <;> simp [Params.xbits, hx, XLen.bits]
  · rw [hr] at hvl hvtype
    obtain ⟨hlt, hsupp⟩ := vtypeOk_iff.mp hok
    refine .inr ⟨?_, hvtype ▸ hlt, ?_, ?_⟩
    · rw [State.vill, hvtype]; exact fieldVill_eq_false _ hlt
    · rw [State.vtypeSupported, hvtype, hcfg]; exact hsupp
    · rw [State.vlN, State.vlmax, hvl, hvtype, hcfg, BitVec.toNat_ofNat]
      exact (Nat.mod_le _ _).trans (chooseVl_le _ _ _)

theorem SetRan.vtypeLegal (hs : s.vtypeLegal) (h : SetRan s insn t) : t.vtypeLegal := by
  cases h with
  | set rd sel cand =>
    exact State.vtypeLegal_of_vsetResult (s := s) (rd := rd) (sel := sel) (cand := cand) (by simp) (by simp) (by simp)
  | illegal => exact hs.of_eq (by simp) (by simp) (by simp)

theorem RanAs.vtypeLegal (hs : s.vtypeLegal) (h : RanAs k s insn t) : t.vtypeLegal := by
  by_cases hk : k = .config
  · subst hk; exact SetRan.vtypeLegal hs h
  · obtain ⟨hvtype, hvl⟩ := h.vtype_eq_and_vlN_le hk
    exact hs.of_vlN_le hvl hvtype h.cfg_eq

end

/-! ### The widths of the registers (R20, R22, R23, R26) -/

section

variable {s t : State} {insn : InsnWord} {k : Kind}

theorem State.registersLegal.complete (h : s.registersLegal) : s.complete.registersLegal where
  v := h.v
  x := h.x
  x0 := h.x0
  pc := truncX_lt _ _
  vstart := Nat.two_pow_pos _

theorem State.registersLegal.takeTrap (h : s.registersLegal) (c : Cause) (tval : XWord) :
    (s.takeTrap c tval).registersLegal where
  v := by simpa using h.v
  x := by simpa using h.x
  x0 := by simpa using h.x0
  pc := by
    obtain ⟨a, ha⟩ := (tookTrap_takeTrap s c tval).pc_eq
    rw [ha, State.takeTrap_cfg]
    exact truncX_lt _ _
  vstart := by simpa [State.vstartN] using h.vstart

theorem State.registersLegal.elemTrap (h : s.registersLegal) {i : Nat} (hi : i < s.cfg.vlen) (c : Cause)
    (tval : XWord) : (s.elemTrap i c tval).registersLegal := by
  have hle : (BitVec.ofNat 64 i).toNat ≤ i := by rw [BitVec.toNat_ofNat]; exact Nat.mod_le _ _
  have hv : ({ s with vstart := BitVec.ofNat 64 i, mstatus := { s.mstatus with vs := .dirty } } : State).registersLegal :=
    ⟨h.v, h.x, h.x0, h.pc, hle.trans_lt hi⟩
  exact hv.takeTrap c tval

theorem State.registersLegal.illegal (h : s.registersLegal) (w : InsnWord) : (s.illegal w).registersLegal :=
  h.takeTrap _ _

theorem State.registersLegal.storeBytes (h : s.registersLegal) (ws : List (Nat × Byte)) :
    (s.storeBytes ws).registersLegal := ⟨h.v, h.x, h.x0, h.pc, h.vstart⟩

/-- Elements are written inside the VLEN bits of their registers. -/
theorem State.registersLegal.writeElems (h : s.registersLegal) {W : Nat} (hW : FitsWidth s.cfg W) (b n : Nat)
    (g : Nat → Option (BitVec W)) :
    ({ s with v := Machine.writeElems s.cfg b W g n s.v } : State).registersLegal :=
  ⟨writeElems_above hW s.v b g n h.v, h.x, h.x0, h.pc, h.vstart⟩

/-- A write of an `x` register stores an XLEN-bit value, and never to `x0` (R20). -/
theorem State.registersLegal.writeX (h : s.registersLegal) (r : RegNo) (a : XWord) :
    (s.writeX r a).registersLegal := by
  by_cases hr : r = 0#5
  · subst hr; exact h
  have hne : (regIdx r).val ≠ 0 := fun h0 => hr (BitVec.eq_of_toNat_eq h0)
  have hget : ∀ q : Fin 32, (s.writeX r a).x.get q = if (regIdx r).val = q.val then truncX s.cfg a else s.x.get q := by
    intro q
    rw [State.writeX, if_neg hr]
    exact Vector.getElem_set (regIdx r).isLt q.isLt
  constructor
  · simpa using h.v
  · intro q
    rw [hget, State.writeX_cfg]
    split
    · exact truncX_lt _ _
    · exact h.x q
  · rw [hget 0, if_neg (by simpa using hne), h.x0]
  · simpa using h.pc
  · simpa [State.vstartN] using h.vstart

theorem RegsRan.registersLegal {loads : Bool} (hs : s.registersLegal) (h : RegsRan loads s insn t) :
    t.registersLegal := by
  cases h with
  | nothing => exact hs.complete
  | written b W n g hW => exact (hs.writeElems hW b n g).complete
  | trapped hload b W n g hW i hi c tval => exact (hs.writeElems hW b n g).elemTrap hi c tval
  | illegal => exact hs.illegal insn

theorem FirstRan.registersLegal (hs : s.registersLegal) (h : FirstRan s insn t) : t.registersLegal := by
  cases h with
  | regs h => exact h.registersLegal hs
  | trimmed b W n g hW limit =>
    obtain ⟨hv, hx, hx0, hpc, hvstart⟩ := hs.writeElems hW b n g
    exact State.registersLegal.complete ⟨hv, hx, hx0, hpc, hvstart⟩

theorem StoreRan.registersLegal (hs : s.registersLegal) (h : StoreRan s insn t) : t.registersLegal := by
  cases h with
  | nothing => exact hs.complete
  | stored ws => exact (hs.storeBytes ws).complete
  | trapped ws hw i hi c tval => exact (hs.storeBytes ws).elemTrap hi c tval
  | illegal => exact hs.illegal insn

theorem SetRan.registersLegal (hs : s.registersLegal) (h : SetRan s insn t) : t.registersLegal := by
  cases h with
  | set rd sel cand =>
    have hset : ({ s with vl := (vsetResult s rd sel cand).1, vtype := (vsetResult s rd sel cand).2 } :
        State).registersLegal := ⟨hs.v, hs.x, hs.x0, hs.pc, hs.vstart⟩
    exact (hset.writeX rd _).complete
  | illegal => exact hs.illegal insn

theorem RanAs.registersLegal (hs : s.registersLegal) (h : RanAs k s insn t) : t.registersLegal := by
  cases k with
  | config => exact SetRan.registersLegal hs h
  | arith | load | maskLoad | wholeLoad => exact RegsRan.registersLegal hs h
  | first => exact FirstRan.registersLegal hs h
  | store | maskStore | wholeStore => exact StoreRan.registersLegal hs h

theorem Completed.trapRegistersLegal (hs : s.trapRegistersLegal) (h : Completed s t) : t.trapRegistersLegal where
  mepc := by rw [h.mepc, h.cfg]; exact hs.mepc
  mcause := by rw [h.mcause, h.cfg]; exact hs.mcause
  mtval := by rw [h.mtval, h.cfg]; exact hs.mtval
  mtvec := by rw [h.mtvec, h.cfg]; exact hs.mtvec
  sepc := by rw [h.sepc, h.cfg]; exact hs.sepc
  scause := by rw [h.scause, h.cfg]; exact hs.scause
  stval := by rw [h.stval, h.cfg]; exact hs.stval
  stvec := by rw [h.stvec, h.cfg]; exact hs.stvec

/-- A trap writes `pc`, its code and its trap value to the registers of one mode, and leaves those of the other. -/
theorem TookTrap.trapRegistersLegal {c : Cause} {tval : XWord} (hs : s.trapRegistersLegal)
    (hpc : s.pc.toNat < 2 ^ s.cfg.xbits) (htval : tval.toNat < 2 ^ s.cfg.xbits) (h : TookTrap s t c tval) :
    t.trapRegistersLegal := by
  have hcode := c.code_lt s.cfg
  cases hd : s.delegated c with
  | false =>
    obtain ⟨h1, h2, h3, -, -, h4, h5, h6, -⟩ := h.machine hd
    constructor <;> simp only [h1, h2, h3, h4, h5, h6, h.cfg, h.mtvec, h.stvec]
    exacts [hpc, hcode, htval, hs.mtvec, hs.sepc, hs.scause, hs.stval, hs.stvec]
  | true =>
    obtain ⟨h1, h2, h3, -, -, h4, h5, h6, -⟩ := h.supervisor hd
    constructor <;> simp only [h1, h2, h3, h4, h5, h6, h.cfg, h.mtvec, h.stvec]
    exacts [hs.mepc, hs.mcause, hs.mtval, hs.mtvec, hpc, hcode, htval, hs.stvec]

end

/-! ### The alignment of `pc` (R22, R67) -/

/-- A completion moves an aligned `pc` to an aligned one. -/
theorem Completed.fetchAligned {s t : State} (hal : Machine.fetchAligned s = true) (h : Completed s t) :
    Machine.fetchAligned t = true := by
  have hpc : t.pc.toNat % 4 = s.pc.toNat % 4 := by
    rw [h.pc, truncX_toNat, BitVec.toNat_add]
    have h4 : (4 : XWord).toNat = 4 := rfl
    cases hx : s.cfg.xlen <;> simp only [Params.xbits, hx, XLen.bits] <;> omega
  have hpc2 : t.pc.toNat % 2 = s.pc.toNat % 2 := by omega
  rw [Machine.fetchAligned, hpc, hpc2, h.cfg]
  exact hal

/-- A handler is aligned for a fetch. -/
theorem TookTrap.fetchAligned {s t : State} {c : Cause} {tval : XWord} (h : TookTrap s t c tval) :
    Machine.fetchAligned t = true := by
  obtain ⟨a, ha⟩ := h.pc_eq
  simp [Machine.fetchAligned, ha, tvecBase_aligned]

end Sys2Proof.Machine

/-- Settles O10: a trap leaves `vl` and `vtype` alone, a fault-only-first load lowers `vl`, and a configuration
instruction sets a supported setting with `vl` at most VLMAX, or `vill`. -/
theorem stepKeepsVtypeLegal : Obligations.StepKeepsVtypeLegal := by
  intro s t hs h
  obtain ⟨hc, ⟨c, rfl, -⟩ | ⟨w, rfl⟩ | ⟨i, hi, -⟩⟩ := step_next_cases h
  · exact hs.of_eq (by simp) (by simp) (by simp)
  · exact hs.of_eq (by simp) (by simp) (by simp)
  · exact (exec_ran hc (vlN_le_vlen_of_vtypeLegal hs) hi).vtypeLegal hs

/-- Settles O12: the register files by the form of the next state, the trap registers by how the step ended. -/
theorem stepKeepsRegistersLegal : Obligations.StepKeepsRegistersLegal := by
  intro s t hs hr h
  have hl := vlN_le_vlen_of_vtypeLegal hs
  constructor
  · obtain ⟨hc, ⟨c, rfl, -⟩ | ⟨w, rfl⟩ | ⟨i, hi, -⟩⟩ := step_next_cases h
    · exact hr.takeTrap _ _
    · exact hr.illegal w
    · exact (exec_ran hc hl hi).registersLegal hr
  · intro ht
    rcases step_ended hl h with ⟨-, hdone⟩ | ⟨c, tval, htrap, htval⟩
    · exact hdone.trapRegistersLegal ht
    · exact htrap.trapRegistersLegal ht hr.pc (htval hr.pc)

/-- Settles O13: a completion moves an aligned `pc` by 4, and a trap goes to a handler. -/
theorem stepLeavesPcAligned : Obligations.StepLeavesPcAligned := by
  intro s t hl h
  rcases step_ended hl h with ⟨hal, hdone⟩ | ⟨c, tval, htrap, -⟩
  · exact hdone.fetchAligned hal
  · exact htrap.fetchAligned

end

section
/-! PROOFS. What an instruction writes, and the checks that stop it before it writes anything. -/

open Sys2Proof Sys2Proof.Machine Sys2Proof.Config

namespace Sys2Proof.Machine

/-! ### The `x` registers (R20, R55) -/

section

variable {s t : State} {insn : InsnWord} {k : Kind}

theorem sameX_of_eq (hx : t.x = s.x) (hcfg : t.cfg = s.cfg) : SameX s t := by
  intro r
  rw [State.readX, State.readX, hx, hcfg]

theorem RegsRan.x_eq {loads : Bool} (h : RegsRan loads s insn t) : t.x = s.x := by cases h <;> simp

theorem FirstRan.x_eq (h : FirstRan s insn t) : t.x = s.x := by
  cases h with
  | regs h => exact h.x_eq
  | trimmed => rfl

theorem StoreRan.x_eq (h : StoreRan s insn t) : t.x = s.x := by cases h <;> simp

/-- Only the configuration instructions write an `x` register. -/
theorem RanAs.sameX (hk : k ≠ .config) (h : RanAs k s insn t) : SameX s t := by
  refine sameX_of_eq ?_ h.cfg_eq
  cases k with
  | config => exact absurd rfl hk
  | arith | load | maskLoad | wholeLoad => exact RegsRan.x_eq h
  | first => exact FirstRan.x_eq h
  | store | maskStore | wholeStore => exact StoreRan.x_eq h

/-- A configuration instruction writes no `x` register but `rd`. -/
theorem vset_readX_other {rd r : RegNo} {sel : AvlSel} {cand : XWord} (h : vset s insn rd sel cand = .next t)
    (hr : r ≠ rd ∨ rd = 0#5) : t.readX r = s.readX r := by
  cases hv : s.vsEnabled with
  | false =>
    rw [vset, if_neg (by simp [hv])] at h
    cases h
    exact (illegalDone_illegal s insn).trap.x r
  | true =>
    obtain ⟨t', h', -, -, -, hread, -⟩ := vset_done (insn := insn) (rd := rd) (sel := sel) (cand := cand) hv
    obtain rfl : t = t' := by rw [h] at h'; cases h'; rfl
    rw [hread, if_neg (by tauto)]

end

/-! ### The shared operation behind each instruction -/

/-- The shared operation that an instruction of each kind calls with its word, and what the operation answers. -/
inductive Calls (s : State) (insn : InsnWord) : Kind → Result → Prop
  | config (rd : RegNo) (sel : AvlSel) (cand : XWord) : Calls s insn .config (vset s insn rd sel cand)
  | arithVec (reserved : Bool) (vd : RegNo) (W : Nat) (on : Nat → Bool) (result : Nat → BitVec W) :
      Calls s insn .arith (arithVec s insn reserved vd W on result)
  | arithMask (reserved : Bool) (vd : RegNo) (bit : Nat → Bool) :
      Calls s insn .arith (arithMask s insn reserved vd bit)
  | load (reserved : Bool) (vd : RegNo) (W : Nat) (vm : Bool) (addr : Nat → XWord) :
      Calls s insn .load (vload s insn reserved vd W vm addr)
  | first (reserved : Bool) (vd : RegNo) (W : Nat) (vm : Bool) (addr : Nat → XWord) :
      Calls s insn .first (vleff s insn reserved vd W vm addr)
  | maskLoad (vd rs1 : RegNo) : Calls s insn .maskLoad (vloadMask s insn vd rs1)
  | wholeLoad (vd rs1 : RegNo) (n w : Nat) : Calls s insn .wholeLoad (vloadWhole s insn vd rs1 n w)
  | store (reserved : Bool) (vs3 : RegNo) (W : Nat) (vm : Bool) (addr : Nat → XWord) (ordered : Bool) :
      Calls s insn .store (vstore s insn reserved vs3 W vm addr ordered)
  | maskStore (vs3 rs1 : RegNo) : Calls s insn .maskStore (vstoreMask s insn vs3 rs1)
  | wholeStore (vs3 rs1 : RegNo) (n : Nat) : Calls s insn .wholeStore (vstoreWhole s insn vs3 rs1 n)

theorem exec_calls (i : Instr) (s : State) : Calls s (encode i) (kindOf i) (exec i s) := by
  cases i with
  | vsetvli | vsetivli | vsetvl => exact .config ..
  | vwadduVv | vwadduVx | vwaddVv | vwaddVx | vwsubuVv | vwsubuVx | vwsubVv | vwsubVx => exact .arithVec ..
  | vwadduWv | vwadduWx | vwaddWv | vwaddWx | vwsubuWv | vwsubuWx | vwsubWv | vwsubWx => exact .arithVec ..
  | vzextVf8 | vsextVf8 | vzextVf4 | vsextVf4 | vzextVf2 | vsextVf2 => exact .arithVec ..
  | vadcVvm | vadcVxm | vadcVim | vsbcVvm | vsbcVxm => exact .arithVec ..
  | vmadcVvm | vmadcVxm | vmadcVim | vmadcVv | vmadcVx | vmadcVi => exact .arithMask ..
  | vmsbcVvm | vmsbcVxm | vmsbcVv | vmsbcVx | vmandMm => exact .arithMask ..
  | vle8V | vle16V | vle32V | vle64V | vlse8V | vlse16V | vlse32V | vlse64V => exact .load ..
  | vluxei8V | vluxei16V | vluxei32V | vluxei64V => exact .load ..
  | vloxei8V | vloxei16V | vloxei32V | vloxei64V => exact .load ..
  | vle8ffV | vle16ffV | vle32ffV | vle64ffV => exact .first ..
  | vlmV => exact .maskLoad ..
  | vl1re8V | vl1re16V | vl1re32V | vl1re64V | vl2re8V | vl2re16V | vl2re32V | vl2re64V => exact .wholeLoad ..
  | vl4re8V | vl4re16V | vl4re32V | vl4re64V | vl8re8V | vl8re16V | vl8re32V | vl8re64V => exact .wholeLoad ..
  | vse8V | vse16V | vse32V | vse64V | vsse8V | vsse16V | vsse32V | vsse64V => exact .store ..
  | vsuxei8V | vsuxei16V | vsuxei32V | vsuxei64V => exact .store ..
  | vsoxei8V | vsoxei16V | vsoxei32V | vsoxei64V => exact .store ..
  | vsmV => exact .maskStore ..
  | vs1rV | vs2rV | vs4rV | vs8rV => exact .wholeStore ..

/-! ### The checks every instruction of a kind makes (R25, R29, R32) -/

/-- The checks that depend on the kind alone: the vector unit on, `vill = 0` where `vtype` matters, and `vstart` below
VLMAX where that is checked. -/
def Kind.checks (k : Kind) (s : State) : Bool :=
  s.vsEnabled && (!k.usesVtype || !s.vill) && (!k.checksVstart || decide (s.vstartN < s.vlmax))

section

variable {s : State} {insn : InsnWord} {k : Kind} {r : Result}

theorem Kind.checks_of_arithLegal {reserved : Bool} (h : s.arithLegal reserved = true) :
    Kind.arith.checks s = true := by
  simp only [State.arithLegal, Bool.and_eq_true] at h
  obtain ⟨⟨⟨⟨hvs, hvill⟩, -⟩, hvstart⟩, -⟩ := h
  simp [Kind.checks, hvs, hvill, hvstart]

theorem Kind.checks_of_memLegal {reserved : Bool} (h : s.memLegal reserved = true) (k : Kind) :
    k.checks s = true := by
  simp only [State.memLegal, Bool.and_eq_true] at h
  obtain ⟨⟨⟨hvs, hvill⟩, -⟩, hvstart⟩ := h
  simp [Kind.checks, hvs, hvill, hvstart]

/-- An instruction one of whose checks fails raises IllegalInstruction, whatever its operands. -/
theorem Calls.eq_illegal (h : Calls s insn k r) (hk : k.checks s = false) : r = .next (s.illegal insn) := by
  have hfail : ¬ k.checks s = true := by simp [hk]
  cases h with
  | config => exact if_neg fun hv => hfail (by simp [Kind.checks, Kind.usesVtype, Kind.checksVstart, hv])
  | wholeLoad | wholeStore =>
    refine if_neg fun hl => hfail ?_
    simp only [Bool.and_eq_true] at hl
    simp [Kind.checks, Kind.usesVtype, Kind.checksVstart, hl]
  | maskLoad | maskStore =>
    refine if_neg fun hl => hfail ?_
    simp only [Bool.and_eq_true] at hl
    simp [Kind.checks, Kind.checksVstart, hl]
  | arithVec | arithMask => exact if_neg fun hl => hfail (Kind.checks_of_arithLegal hl)
  | load | first | store => exact if_neg fun hl => hfail (Kind.checks_of_memLegal hl _)

theorem exec_illegalDone_of_checks {i : Instr} (h : (kindOf i).checks s = false) :
    ∃ t, exec i s = .next t ∧ IllegalDone s t (encode i) :=
  ⟨_, (exec_calls i s).eq_illegal h, illegalDone_illegal s _⟩

end

/-! ### With no body nothing is written (R43) -/

section

variable {s : State} {insn : InsnWord} {k : Kind} {r : Result} {vd : RegNo} {W body : Nat} {on : Nat → Bool}
  {addr : Nat → XWord}

theorem loadLoop_empty {n : Nat} {vma vta : Bool} (h : body ≤ s.vstartN) :
    loadLoop s vd W body n on addr vma vta = .next s.complete := if_neg (Nat.not_lt.mpr h)

theorem storeLoop_empty {ordered : Bool} (h : body ≤ s.vstartN) :
    storeLoop s vd W body on addr ordered = .next s.complete := if_neg (Nat.not_lt.mpr h)

theorem ffLoop_empty (h : s.vlN ≤ s.vstartN) : ffLoop s vd W on addr = .next s.complete := if_neg (Nat.not_lt.mpr h)

/-- An instruction governed by `vl` with no body completes at once, or is illegal. -/
theorem Calls.eq_complete_or_illegal (h : Calls s insn k r) (hk : k.checksVstart = true) (hl : s.vlN ≤ s.vstartN) :
    r = .next s.complete ∨ r = .next (s.illegal insn) := by
  cases h with
  | config | maskLoad | wholeLoad | maskStore | wholeStore => cases hk
  | arithVec reserved | arithMask reserved =>
    by_cases hok : s.arithLegal reserved = true
    · exact .inl ((if_pos hok).trans (if_neg (Nat.not_lt.mpr hl)))
    · exact .inr (if_neg hok)
  | load reserved =>
    by_cases hok : s.memLegal reserved = true
    · exact .inl ((if_pos hok).trans (loadLoop_empty hl))
    · exact .inr (if_neg hok)
  | first reserved =>
    by_cases hok : s.memLegal reserved = true
    · exact .inl ((if_pos hok).trans (ffLoop_empty hl))
    · exact .inr (if_neg hok)
  | store reserved =>
    by_cases hok : s.memLegal reserved = true
    · exact .inl ((if_pos hok).trans (storeLoop_empty hl))
    · exact .inr (if_neg hok)

end

/-! ### The exceptions of a fetch (R22, R67, R69) -/

/-- A step whose fetch raises takes that trap, and changes no register but the trap's own and no memory. -/
theorem step_traps_of_fetch {s : State} {c : Cause} {tval : XWord} (hc : s.cfg.wf)
    (h : fetch s = .stops (.raises c tval)) :
    ∃ t, step s = .next t ∧ TookTrap s t c tval ∧ t.vstart = s.vstart ∧ SameVectors s t ∧ SameMemory s t := by
  refine ⟨s.takeTrap c tval, by rw [step, if_pos hc, h], tookTrap_takeTrap s c tval, by simp, fun r => by simp, ?_⟩
  exact sameMemory_of_eq (by simp) (by simp)

theorem fetch_misaligned {s : State} (h : fetchAligned s = false) :
    fetch s = .stops (.raises .instrAddressMisaligned s.pc) := if_pos h

theorem fetch_accessFault {s : State} (h : fetchAligned s = true)
    (ha : memAdmits s.cfg s.pc.toNat 4 .fetch = .accessFault) : fetch s = .stops (.raises .instrAccessFault s.pc) := by
  rw [fetch, if_neg (by simp [h]), ha]

theorem fetch_pageFault {s : State} (h : fetchAligned s = true)
    (ha : memAdmits s.cfg s.pc.toNat 4 .fetch = .pageFault) : fetch s = .stops (.raises .instrPageFault s.pc) := by
  rw [fetch, if_neg (by simp [h]), ha]

/-! ### The vector CSRs (R24 to R26, R49 to R52, R365) -/

section

variable {s t : State} {k : VCsr} {a : XWord}

theorem State.vsEnabled_eq_false (h : s.mstatus.vs = .off) : s.vsEnabled = false := by simp [State.vsEnabled, h]

theorem readCsr_of_on (h : s.vsEnabled = true) (k : VCsr) : readCsr k s = .ok (k.value s) := if_pos h

theorem readCsr_of_off (h : s.vsEnabled = false) (k : VCsr) : readCsr k s = .error .illegalInstruction :=
  if_neg (by simp [h])

theorem writeCsr_of_off (h : s.vsEnabled = false) (k : VCsr) (a : XWord) :
    writeCsr k a s = .error .illegalInstruction := if_pos (.inl h)

theorem writeCsr_of_readOnly (h : k.readOnly = true) (a : XWord) (s : State) :
    writeCsr k a s = .error .illegalInstruction := if_pos (.inr h)

theorem writeCsr_of_writable (h : s.vsEnabled = true) (hk : k.readOnly = false) (a : XWord) :
    writeCsr k a s = .ok (k.store s a).markDirty := if_neg (by simp [h, hk])

/-- A write that succeeds is the store, after which the vector state is dirty. -/
theorem eq_of_writeCsr (h : writeCsr k a s = .ok t) : t = (k.store s a).markDirty := by
  rw [writeCsr] at h
  split at h
  · cases h
  · cases h; rfl

/-- A CSR write stores to `vstart`, `vxsat` and `vxrm` only. -/
theorem VCsr.store_frame (k : VCsr) (s : State) (a : XWord) :
    (k.store s a).cfg = s.cfg ∧ (k.store s a).x = s.x ∧ (k.store s a).v = s.v ∧ (k.store s a).mem = s.mem ∧
      (k.store s a).vl = s.vl ∧ (k.store s a).vtype = s.vtype := by
  cases k <;> exact ⟨rfl, rfl, rfl, rfl, rfl, rfl⟩

/-- `vlenb` depends on the parameters alone. -/
theorem VCsr.value_vlenb_of_cfg_eq (h : t.cfg = s.cfg) : VCsr.vlenb.value t = VCsr.vlenb.value s := by
  rw [VCsr.value, VCsr.value, h]

theorem extractLsb'_vcsr_vxrm (a : BitVec 2) (b : BitVec 1) :
    ((a ++ b).setWidth 64 : XWord).extractLsb' 1 2 = a := by revert a b; decide

theorem extractLsb'_vcsr_vxsat (a : BitVec 2) (b : BitVec 1) :
    ((a ++ b).setWidth 64 : XWord).extractLsb' 0 1 = b := by revert a b; decide

/-- Three bits zero-extended have no bit above them. -/
theorem getLsbD_vcsr_of_le (a : BitVec 2) (b : BitVec 1) {j : Nat} (hj : 3 ≤ j) :
    ((a ++ b).setWidth 64 : XWord).getLsbD j = false := by
  rw [BitVec.getLsbD_setWidth, BitVec.getLsbD_of_ge (a ++ b) j hj, Bool.and_false]

end

end Sys2Proof.Machine

/-- Settles O15: by the three ends of an instruction. -/
theorem completesOrTraps : Obligations.CompletesOrTraps := by
  intro i s t hs h
  cases (exec_ran hs.params (vlN_le_vlen_of_sized hs) h).ended with
  | completed h => exact .inl h
  | illegal h => subst h; exact .inr ⟨_, _, tookTrap_takeTrap s _ _, .inl rfl⟩
  | trapped c tval h hk => exact .inr ⟨c, tval, h, .inr hk⟩

/-- Settles O16: what each form of next state leaves of `vl` and `vtype`. -/
theorem whoWritesVlAndVtype : Obligations.WhoWritesVlAndVtype := by
  intro i s t hs h
  have hran := exec_ran hs.params (vlN_le_vlen_of_sized hs) h
  refine ⟨fun hk => (hran.vtype_eq_and_vlN_le hk).1, fun hk hf => (hran.sameVtype hk hf).1, fun hf => ?_⟩
  exact (hran.vtype_eq_and_vlN_le (by rw [hf]; decide)).2

/-- Settles O17: no form of next state but a configuration's touches the `x` file, and that one writes `rd`. -/
theorem whoWritesScalars : Obligations.WhoWritesScalars := by
  refine ⟨fun i s t hs h hk => (exec_ran hs.params (vlN_le_vlen_of_sized hs) h).sameX hk, ?_, ?_, ?_,
    State.readX_zero⟩
  · exact fun rd rs1 zimm s t h r hr => vset_readX_other h hr
  · exact fun rd uimm zimm s t h r hr => vset_readX_other h hr
  · exact fun rd rs1 rs2 s t h r hr => vset_readX_other h hr

/-- Settles O19: only the end that changes nothing reports an IllegalInstruction. -/
theorem illegalInstructionChangesNothing : Obligations.IllegalInstructionChangesNothing := by
  intro i s t tval epc hs h hr
  obtain rfl := (exec_ran hs.params (vlN_le_vlen_of_sized hs) h).ended.eq_illegal hr
  rw [State.illegal_report] at hr
  cases hr
  exact ⟨rfl, rfl, illegalDone_illegal s _⟩

/-- Settles O20: the first check of every instruction and of every CSR access. -/
theorem vectorUnitOffRaisesIllegal : Obligations.VectorUnitOffRaisesIllegal := by
  constructor
  · intro i s hoff
    exact exec_illegalDone_of_checks (by simp [Kind.checks, State.vsEnabled_eq_false hoff])
  · intro k a s hoff
    have hv := State.vsEnabled_eq_false hoff
    exact ⟨readCsr_of_off hv k, writeCsr_of_off hv k a⟩

/-- Settles O21: `vill` fails a check of every kind that uses `vtype`. -/
theorem villRaisesIllegal : Obligations.VillRaisesIllegal := by
  intro i s hvill hk
  exact exec_illegalDone_of_checks (by simp [Kind.checks, hvill, hk])

/-- Settles O22: the check on `vstart` fails. -/
theorem vstartTooLargeRaisesIllegal : Obligations.VstartTooLargeRaisesIllegal := by
  intro i s hle hk
  exact exec_illegalDone_of_checks (by simp [Kind.checks, Nat.not_lt.mpr hle, hk])

/-- Settles O24: behind its checks every such instruction first asks whether there is a body. -/
theorem emptyBodyWritesNothing : Obligations.EmptyBodyWritesNothing := by
  intro i s hl hk
  rcases (exec_calls i s).eq_complete_or_illegal hk hl with h | h
  · exact ⟨_, h, .inl ⟨completed_complete_self s, fun r => rfl, fun r => rfl, ⟨rfl, rfl⟩, fun a => rfl, rfl⟩⟩
  · exact ⟨_, h, .inr (illegalDone_illegal s _)⟩

/-- Settles O7: the three ways the fetch raises, and the trap the step then takes. -/
theorem fetchExceptions : Obligations.FetchExceptions := by
  intro s hc
  exact ⟨fun hal => step_traps_of_fetch hc (fetch_misaligned hal),
    fun hal ha => step_traps_of_fetch hc (fetch_accessFault hal ha),
    fun hal ha => step_traps_of_fetch hc (fetch_pageFault hal ha)⟩

/-- Settles O27: `vlenb` is a parameter, which no write and no instruction changes. -/
theorem vlenbReadsVlenOverEight : Obligations.VlenbReadsVlenOverEight := by
  intro s hv
  refine ⟨readCsr_of_on hv .vlenb, fun a => writeCsr_of_readOnly rfl a s, fun k a t h => ?_, fun i t hs h => ?_⟩
  · rw [eq_of_writeCsr h]
    exact VCsr.value_vlenb_of_cfg_eq (k.store_frame s a).1
  · exact VCsr.value_vlenb_of_cfg_eq (exec_ran hs.params (vlN_le_vlen_of_sized hs) h).cfg_eq

/-- Settles O28: the slices of the joined value, and of the value written. -/
theorem vcsrMirrors : Obligations.VcsrMirrors := by
  intro s a hv
  constructor
  · exact ⟨_, readCsr_of_on hv .vcsr, extractLsb'_vcsr_vxrm _ _, extractLsb'_vcsr_vxsat _ _,
      fun j hj => getLsbD_vcsr_of_le _ _ hj⟩
  · exact ⟨_, writeCsr_of_writable hv rfl a, rfl, rfl, rfl, rfl, rfl⟩

/-- Settles O29: what each CSR reads as, what a write stores, and the status a write of `mstatus.VS` leaves. -/
theorem csrAccess : Obligations.CsrAccess := by
  constructor
  · intro s a hv
    refine ⟨readCsr_of_on hv .vstart, readCsr_of_on hv .vl, readCsr_of_on hv .vtype, readCsr_of_on hv .vxsat,
      readCsr_of_on hv .vxrm, writeCsr_of_readOnly rfl a s, writeCsr_of_readOnly rfl a s, writeCsr_of_readOnly rfl a s,
      ⟨_, writeCsr_of_writable hv rfl a, fun hc => ?_⟩, ⟨_, writeCsr_of_writable hv rfl a, rfl, rfl, rfl⟩,
      ⟨_, writeCsr_of_writable hv rfl a, rfl, rfl, rfl⟩, fun k t h => ?_⟩
    · have hlt : a.toNat % s.cfg.vlen < 65536 := (Nat.mod_lt _ FitsWidth.vlen_pos).trans_le (vlen_le hc)
      show (BitVec.ofNat 64 (a.toNat % s.cfg.vlen)).toNat = a.toNat % s.cfg.vlen
      rw [BitVec.toNat_ofNat, Nat.mod_eq_of_lt (by omega)]
    · obtain ⟨-, hx, hvec, hmem, hvl, hvtype⟩ := k.store_frame s a
      rw [eq_of_writeCsr h]
      exact ⟨rfl, MStatus.sd_of_vs_dirty rfl, hx, hvec, hmem, hvl, hvtype⟩
  · intro s b
    exact ⟨VsStatus.code_ofCode b, State.vsEnabled_writeVs s b, rfl, rfl, rfl, rfl⟩

/-- Settles O8: each invariant, read off the reset state. -/
theorem resetLegal : Obligations.ResetLegal := by
  refine ⟨by decide, .inl ⟨by decide, by decide, rfl⟩, ⟨rfl, ?_, ?_, ?_⟩, ⟨?_, ?_, rfl, by decide, by decide⟩, ?_, rfl⟩
  · exact fun p hp => absurd hp List.not_mem_nil
  · exact List.Pairwise.nil
  · exact fun a ha => absurd ha List.not_mem_nil
  · intro n j _
    have hz : vreg State.reset.v n = 0 := Vector.getElem_replicate _
    rw [hz]
    exact BitVec.getLsbD_zero
  · intro r
    have hz : State.reset.x.get r = 0 := Vector.getElem_replicate _
    rw [hz]
    exact Nat.two_pow_pos _
  · constructor <;> decide

/-- Settles O9: by evaluating the reset state. -/
theorem resetValues : Obligations.ResetValues := by
  refine ⟨?_, ?_, rfl, rfl, rfl, rfl, rfl⟩ <;> decide

end

section
/-! PROOFS. What an instruction leaves when its checks pass, and which operands are reserved. -/

open Sys2Proof Sys2Proof.Machine Sys2Proof.Config

namespace Sys2Proof.Machine

/-! ### Settings that are not supported (R32, R133, R135, R136) -/

section

variable {s : State} {insn : InsnWord} {rd rs1 : RegNo} {sel : AvlSel} {cand : XWord}

theorem vsetResult_of_not_ok (h : vtypeOk s.cfg cand = false) :
    vsetResult s rd sel cand = (0, BitVec.twoPow 64 (s.cfg.xbits - 1)) := if_neg (by simp [h])

theorem vsetResult_of_avlOf_none
    (h : avlOf s rd sel (vlmaxOf s.cfg (fieldVsew cand) (fieldVlmul cand)) = none) :
    vsetResult s rd sel cand = (0, BitVec.twoPow 64 (s.cfg.xbits - 1)) := by
  rcases vsetResult_cases s rd sel cand with hr | ⟨-, avl, havl, -⟩
  · exact hr
  · rw [h] at havl; cases havl

/-- A candidate is refused for a bit above bit 7 or for its setting. -/
theorem vtypeOk_eq_false {c : Params}
    (h : 256 ≤ cand.toNat ∨ supportsVtype c (fieldVsew cand) (fieldVlmul cand) = false) : vtypeOk c cand = false := by
  rcases h with h | h
  · simp [vtypeOk, Nat.not_lt.mpr h]
  · simp [vtypeOk, h]

/-- The reserved use of the form that keeps `vl` has no AVL (R136). -/
theorem avlOf_eq_none {n : Nat} (hrs1 : rs1 = 0#5) (hrd : rd = 0#5) (h : s.vill = true ∨ n ≠ s.vlmax) :
    avlOf s rd (.reg rs1) n = none := by
  subst hrs1 hrd
  exact if_pos h

/-- An unsupported setting completes with `vill` set and everything else zero. -/
theorem vset_sets_vill (hv : s.vsEnabled = true)
    (h : vsetResult s rd sel cand = (0, BitVec.twoPow 64 (s.cfg.xbits - 1))) :
    ∃ t, vset s insn rd sel cand = .next t ∧ ConfigDone s t rd 0 (BitVec.twoPow 64 (s.cfg.xbits - 1)) := by
  obtain ⟨t, ht, hdone, hvl, hvtype, hread, hvec, hmem⟩ :=
    vset_done (insn := insn) (rd := rd) (sel := sel) (cand := cand) hv
  rw [h] at hvl hvtype hread
  refine ⟨t, ht, hdone, hvl, hvtype, fun hrd => ?_, fun r hr => ?_, hvec, hmem⟩
  · rw [hread, if_pos ⟨rfl, hrd⟩]
    cases hx : s.cfg.xlen <;> simp [truncX, hx]
  · rw [hread, if_neg (by tauto)]

end

/-! ### Operands that are not reserved (R39, R47, R48, R169) -/

section

variable {s : State} {vd vs2 vs1 : RegNo} {vm : Bool}

theorem v0Ok_of (h : vm = true ∨ vd ≠ 0#5) : v0Ok vd vm = true := by
  rcases h with h | h <;> simp [v0Ok, h]

theorem wideDestOk_of (hg : groupOk s.cfg vd (2 * s.lmul8) (2 * s.sew) = true) (hm : vm = true ∨ vd ≠ 0#5) :
    wideDestOk s vd vm = true := by rw [wideDestOk, hg, v0Ok_of hm]; rfl

theorem wideNarrowOk_of {vs : RegNo} (hg : groupOk s.cfg vs s.lmul8 s.sew = true)
    (ho : overlapOk vd (2 * s.sew) (2 * s.lmul8) vs s.sew s.lmul8 = true) : wideNarrowOk s vd vs = true := by
  rw [wideNarrowOk, hg, ho]; rfl

theorem reservedVv_of (hd : wideDestOk s vd vm = true) (h2 : wideNarrowOk s vd vs2 = true)
    (h1 : wideNarrowOk s vd vs1 = true) : reservedVv s vd vs2 vs1 vm = false := by rw [reservedVv, hd, h2, h1]; rfl

theorem reservedVx_of (hd : wideDestOk s vd vm = true) (h2 : wideNarrowOk s vd vs2 = true) :
    reservedVx s vd vs2 vm = false := by rw [reservedVx, hd, h2]; rfl

theorem reservedWv_of (hd : wideDestOk s vd vm = true) (h2 : groupOk s.cfg vs2 (2 * s.lmul8) (2 * s.sew) = true)
    (h1 : wideNarrowOk s vd vs1 = true) : reservedWv s vd vs2 vs1 vm = false := by rw [reservedWv, hd, h2, h1]; rfl

theorem reservedWx_of (hd : wideDestOk s vd vm = true) (h2 : groupOk s.cfg vs2 (2 * s.lmul8) (2 * s.sew) = true) :
    reservedWx s vd vs2 vm = false := by rw [reservedWx, hd, h2]; rfl

/-- A widening instruction whose operands are not reserved completes (R155, R169). -/
theorem wide_completes {insn : InsnWord} {reserved : Bool} {on : Nat → Bool} {result : Nat → BitVec (2 * s.sew)}
    (hs : s.sized) (hr : s.arithReady) (hg : groupOk s.cfg vd (2 * s.lmul8) (2 * s.sew) = true)
    (hres : reserved = false) :
    ∃ t, arithVec s insn reserved vd (2 * s.sew) on result = .next t ∧ ArithDone s t vd (2 * s.sew) on result :=
  arithVec_completes hs hr State.two_sew_pow (by rw [State.emul8_two_sew]; exact hg) hres fun _ => rfl

end

/-! ### Reserved operands, condition by condition (R169, R201, R217, R218, R251, R311) -/

section

variable {s : State} {vd vs2 vs1 : RegNo} {vm : Bool} {k w : Nat}

theorem reservedVv_iff : reservedVv s vd vs2 vs1 vm = true ↔
    groupOk s.cfg vd (2 * s.lmul8) (2 * s.sew) = false ∨ v0Ok vd vm = false ∨
      groupOk s.cfg vs2 s.lmul8 s.sew = false ∨ groupOk s.cfg vs1 s.lmul8 s.sew = false ∨
      overlapOk vd (2 * s.sew) (2 * s.lmul8) vs2 s.sew s.lmul8 = false ∨
      overlapOk vd (2 * s.sew) (2 * s.lmul8) vs1 s.sew s.lmul8 = false := by
  simp only [reservedVv, wideDestOk, wideNarrowOk, Bool.not_eq_true', Bool.and_eq_false_iff]
  tauto

theorem reservedVx_iff : reservedVx s vd vs2 vm = true ↔
    groupOk s.cfg vd (2 * s.lmul8) (2 * s.sew) = false ∨ v0Ok vd vm = false ∨
      groupOk s.cfg vs2 s.lmul8 s.sew = false ∨
      overlapOk vd (2 * s.sew) (2 * s.lmul8) vs2 s.sew s.lmul8 = false := by
  simp only [reservedVx, wideDestOk, wideNarrowOk, Bool.not_eq_true', Bool.and_eq_false_iff]
  tauto

theorem reservedWv_iff : reservedWv s vd vs2 vs1 vm = true ↔
    groupOk s.cfg vd (2 * s.lmul8) (2 * s.sew) = false ∨ v0Ok vd vm = false ∨
      groupOk s.cfg vs2 (2 * s.lmul8) (2 * s.sew) = false ∨ groupOk s.cfg vs1 s.lmul8 s.sew = false ∨
      overlapOk vd (2 * s.sew) (2 * s.lmul8) vs1 s.sew s.lmul8 = false := by
  simp only [reservedWv, wideDestOk, wideNarrowOk, Bool.not_eq_true', Bool.and_eq_false_iff]
  tauto

theorem reservedWx_iff : reservedWx s vd vs2 vm = true ↔
    groupOk s.cfg vd (2 * s.lmul8) (2 * s.sew) = false ∨ v0Ok vd vm = false ∨
      groupOk s.cfg vs2 (2 * s.lmul8) (2 * s.sew) = false := by
  simp only [reservedWx, wideDestOk, Bool.not_eq_true', Bool.and_eq_false_iff]
  tauto

theorem extReserved_iff : extReserved s k vd vs2 vm = true ↔
    groupOk s.cfg vd s.lmul8 s.sew = false ∨ v0Ok vd vm = false ∨
      groupOk s.cfg vs2 (s.lmul8 / k) (s.sew / k) = false ∨
      overlapOk vd s.sew s.lmul8 vs2 (s.sew / k) (s.lmul8 / k) = false := by
  simp only [extReserved, Bool.not_eq_true', Bool.and_eq_false_iff]
  tauto

theorem adcReserved_iff : adcReserved s vd vs2 = true ↔
    vd = 0#5 ∨ groupOk s.cfg vd s.lmul8 s.sew = false ∨ groupOk s.cfg vs2 s.lmul8 s.sew = false := by
  simp only [adcReserved, sewGroupOk, Bool.not_eq_true', Bool.and_eq_false_iff, decide_eq_false_iff_not, not_not,
    or_assoc]

theorem adcReservedVv_iff : adcReservedVv s vd vs2 vs1 = true ↔
    vd = 0#5 ∨ groupOk s.cfg vd s.lmul8 s.sew = false ∨ groupOk s.cfg vs2 s.lmul8 s.sew = false ∨
      groupOk s.cfg vs1 s.lmul8 s.sew = false := by
  simp only [adcReservedVv, sewGroupOk, Bool.or_eq_true, adcReserved_iff, Bool.not_eq_true', or_assoc]

theorem madcReserved_iff : madcReserved s vd vs2 = true ↔
    groupOk s.cfg vs2 s.lmul8 s.sew = false ∨ overlapOk vd 1 8 vs2 s.sew s.lmul8 = false := by
  simp only [madcReserved, carrySourceOk, sewGroupOk, Bool.not_eq_true', Bool.and_eq_false_iff]

theorem madcReservedVv_iff : madcReservedVv s vd vs2 vs1 = true ↔
    groupOk s.cfg vs2 s.lmul8 s.sew = false ∨ groupOk s.cfg vs1 s.lmul8 s.sew = false ∨
      overlapOk vd 1 8 vs2 s.sew s.lmul8 = false ∨ overlapOk vd 1 8 vs1 s.sew s.lmul8 = false := by
  simp only [madcReservedVv, carrySourceOk, sewGroupOk, Bool.not_eq_true', Bool.and_eq_false_iff]
  tauto

theorem loadReserved_iff : loadReserved s w vd vm = true ↔
    groupOk s.cfg vd (s.emul8 w) w = false ∨ v0Ok vd vm = false := by
  simp only [loadReserved, Bool.not_eq_true', Bool.and_eq_false_iff]

theorem indexedLoadReserved_iff : indexedLoadReserved s w vd vs2 vm = true ↔
    groupOk s.cfg vd s.lmul8 s.sew = false ∨ groupOk s.cfg vs2 (s.emul8 w) w = false ∨ v0Ok vd vm = false ∨
      overlapOk vd s.sew s.lmul8 vs2 w (s.emul8 w) = false := by
  simp only [indexedLoadReserved, Bool.not_eq_true', Bool.and_eq_false_iff, or_assoc]

theorem storeReserved_iff : storeReserved s w vd = true ↔ groupOk s.cfg vd (s.emul8 w) w = false := by
  simp only [storeReserved, Bool.not_eq_true']

theorem indexedStoreReserved_iff : indexedStoreReserved s w vd vs2 = true ↔
    groupOk s.cfg vd s.lmul8 s.sew = false ∨ groupOk s.cfg vs2 (s.emul8 w) w = false := by
  simp only [indexedStoreReserved, Bool.not_eq_true', Bool.and_eq_false_iff]

end

/-! ### Groups and overlaps in the terms of the spec (R39, R47, R48) -/

theorem groupOk_eq_false_iff {c : Params} {b : RegNo} {m w : Nat} :
    groupOk c b m w = false ↔ m < 1 ∨ 64 < m ∨ w < 8 ∨ c.elen < w ∨ b.toNat % nregs m ≠ 0 := by
  rw [← Bool.not_eq_true, groupOk_iff]
  omega

theorem v0Ok_eq_false_iff {vd : RegNo} {vm : Bool} : v0Ok vd vm = false ↔ vm = false ∧ vd = 0#5 := by
  simp [v0Ok]

theorem one_le_nregs (m : Nat) : 1 ≤ nregs m := Nat.le_max_left ..

/-- Two groups meet exactly when some register is in both. -/
theorem groupsMeet_iff {b1 b2 : RegNo} {m1 m2 : Nat} :
    groupsMeet b1 m1 b2 m2 = true ↔
      ∃ g, (b1.toNat ≤ g ∧ g < b1.toNat + nregs m1) ∧ b2.toNat ≤ g ∧ g < b2.toNat + nregs m2 := by
  have h1 := one_le_nregs m1
  have h2 := one_le_nregs m2
  rw [groupsMeet, decide_eq_true_eq]
  constructor
  · intro h
    exact ⟨max b1.toNat b2.toNat, by omega, by omega⟩
  · rintro ⟨g, hg1, hg2⟩
    omega

/-- An overlap is forbidden exactly when the groups meet, their widths differ and neither exception of R48 holds. -/
theorem overlapOk_eq_false_iff {db sb : RegNo} {dW dM sW sM : Nat} :
    overlapOk db dW dM sb sW sM = false ↔
      (∃ g, (db.toNat ≤ g ∧ g < db.toNat + nregs dM) ∧ sb.toNat ≤ g ∧ g < sb.toNat + nregs sM) ∧ dW ≠ sW ∧
        ¬ (dW < sW ∧ db = sb) ∧ ¬ (sW < dW ∧ 8 ≤ sM ∧ sb.toNat + nregs sM = db.toNat + nregs dM) := by
  rw [← groupsMeet_iff, overlapOk]
  cases groupsMeet db dM sb sM with
  | false => simp
  | true =>
    rcases Nat.lt_trichotomy dW sW with hlt | heq | hgt
    · simp [hlt.ne, hlt, Nat.not_lt_of_gt hlt]
    · simp [heq]
    · simp [hgt.ne', hgt, Nat.not_lt_of_gt hgt]

end Sys2Proof.Machine

/-- Settles O34: such a candidate is refused, or the form that keeps `vl` has no AVL; either way `vill` is set. -/
theorem unsupportedSettingSetsVill : Obligations.UnsupportedSettingSetsVill := by
  intro s hv bad keeps vill
  have hbad : ∀ {rd : RegNo} {sel : AvlSel} {cand : XWord} (insn : InsnWord), bad cand →
      ∃ t, vset s insn rd sel cand = .next t ∧ ConfigDone s t rd 0 vill :=
    fun _ h => vset_sets_vill hv (vsetResult_of_not_ok (vtypeOk_eq_false h))
  have hkeeps : ∀ {rd rs1 : RegNo} {cand : XWord} (insn : InsnWord), keeps rd rs1 cand →
      ∃ t, vset s insn rd (.reg rs1) cand = .next t ∧ ConfigDone s t rd 0 vill :=
    fun _ ⟨hrs1, hrd, h⟩ => vset_sets_vill hv (vsetResult_of_avlOf_none (avlOf_eq_none hrs1 hrd h))
  exact ⟨fun rd rs1 zimm h => h.elim (hbad _) (hkeeps _), fun rd rs1 rs2 h => h.elim (hbad _) (hkeeps _),
    fun rd uimm zimm h => hbad _ h⟩

/-- Settles O38: the operands are not reserved, so the arithmetic loop completes with each form's result. -/
theorem wideningVvResult : Obligations.WideningVvResult := by
  intro s vd vs2 vs1 vm hs hr hg hm hg2 ho2 hg1 ho1
  have hres := reservedVv_of (wideDestOk_of hg hm) (wideNarrowOk_of hg2 ho2) (wideNarrowOk_of hg1 ho1)
  exact ⟨wide_completes hs hr hg hres, wide_completes hs hr hg hres, wide_completes hs hr hg hres,
    wide_completes hs hr hg hres⟩

/-- Settles O39: as for the `.vv` forms, with one vector source to check. -/
theorem wideningVxResult : Obligations.WideningVxResult := by
  intro s vd vs2 rs1 vm hs hr hg hm hg2 ho2
  have hres := reservedVx_of (wideDestOk_of hg hm) (wideNarrowOk_of hg2 ho2)
  exact ⟨wide_completes hs hr hg hres, wide_completes hs hr hg hres, wide_completes hs hr hg hres,
    wide_completes hs hr hg hres⟩

/-- Settles O40: as for the `.vv` forms, with `vs2` of the destination's width. -/
theorem wideningWvResult : Obligations.WideningWvResult := by
  intro s vd vs2 vs1 vm hs hr hg hm hg2 hg1 ho1
  have hres := reservedWv_of (wideDestOk_of hg hm) hg2 (wideNarrowOk_of hg1 ho1)
  exact ⟨wide_completes hs hr hg hres, wide_completes hs hr hg hres, wide_completes hs hr hg hres,
    wide_completes hs hr hg hres⟩

/-- Settles O41: as for the `.wv` forms, with no narrow vector source. -/
theorem wideningWxResult : Obligations.WideningWxResult := by
  intro s vd vs2 rs1 vm hs hr hg hm hg2
  have hres := reservedWx_of (wideDestOk_of hg hm) hg2
  exact ⟨wide_completes hs hr hg hres, wide_completes hs hr hg hres, wide_completes hs hr hg hres,
    wide_completes hs hr hg hres⟩

/-- Settles O47: each clause lists what its form counts as reserved, and reserved operands raise IllegalInstruction. -/
theorem reservedOperandsRaiseIllegal : Obligations.ReservedOperandsRaiseIllegal := by
  intro s vd vs2 vs1 r r2 imm vm illegal
  refine ⟨?_, ?_, ?_, ?_, ?_, ?_, ?_, ?_, ?_, ?_, ?_, ?_, ?_, ?_, ?_, ?_, ?_, ?_, ?_, ?_, ?_, ?_, ?_, ?_, ?_, ?_,
    ?_, ?_, ?_, ?_, ?_, ?_, ?_, ?_, ?_, ?_⟩
  -- the widening forms (R169)
  · intro h; and_intros <;> exact arithVec_illegal (reservedVv_iff.mpr h)
  · intro h; and_intros <;> exact arithVec_illegal (reservedVx_iff.mpr h)
  · intro h; and_intros <;> exact arithVec_illegal (reservedWv_iff.mpr h)
  · intro h; and_intros <;> exact arithVec_illegal (reservedWx_iff.mpr h)
  -- the extensions by 8, 4 and 2 (R201)
  · intro h; and_intros <;> exact arithVec_illegal (extReserved_iff.mpr h)
  · intro h; and_intros <;> exact arithVec_illegal (extReserved_iff.mpr h)
  · intro h; and_intros <;> exact arithVec_illegal (extReserved_iff.mpr h)
  -- the carry family (R217, R218)
  · intro h; and_intros <;> exact arithVec_illegal (adcReservedVv_iff.mpr h)
  · intro h; and_intros <;> exact arithVec_illegal (adcReserved_iff.mpr h)
  · intro h; and_intros <;> exact arithMask_illegal (madcReservedVv_iff.mpr h)
  · intro h; and_intros <;> exact arithMask_illegal (madcReserved_iff.mpr h)
  -- the loads and stores of width 8 (R251, R311)
  · exact fun h => ⟨vload_illegal (loadReserved_iff.mpr h), vload_illegal (loadReserved_iff.mpr h),
      vleff_illegal (loadReserved_iff.mpr h)⟩
  · intro h; and_intros <;> exact vload_illegal (indexedLoadReserved_iff.mpr h)
  · intro h; and_intros <;> exact vstore_illegal (storeReserved_iff.mpr h)
  · intro h; and_intros <;> exact vstore_illegal (indexedStoreReserved_iff.mpr h)
  -- the loads and stores of width 16 (R251, R311)
  · exact fun h => ⟨vload_illegal (loadReserved_iff.mpr h), vload_illegal (loadReserved_iff.mpr h),
      vleff_illegal (loadReserved_iff.mpr h)⟩
  · intro h; and_intros <;> exact vload_illegal (indexedLoadReserved_iff.mpr h)
  · intro h; and_intros <;> exact vstore_illegal (storeReserved_iff.mpr h)
  · intro h; and_intros <;> exact vstore_illegal (indexedStoreReserved_iff.mpr h)
  -- the loads and stores of width 32 (R251, R311)
  · exact fun h => ⟨vload_illegal (loadReserved_iff.mpr h), vload_illegal (loadReserved_iff.mpr h),
      vleff_illegal (loadReserved_iff.mpr h)⟩
  · intro h; and_intros <;> exact vload_illegal (indexedLoadReserved_iff.mpr h)
  · intro h; and_intros <;> exact vstore_illegal (storeReserved_iff.mpr h)
  · intro h; and_intros <;> exact vstore_illegal (indexedStoreReserved_iff.mpr h)
  -- the loads and stores of width 64 (R251, R311)
  · exact fun h => ⟨vload_illegal (loadReserved_iff.mpr h), vload_illegal (loadReserved_iff.mpr h),
      vleff_illegal (loadReserved_iff.mpr h)⟩
  · intro h; and_intros <;> exact vload_illegal (indexedLoadReserved_iff.mpr h)
  · intro h; and_intros <;> exact vstore_illegal (storeReserved_iff.mpr h)
  · intro h; and_intros <;> exact vstore_illegal (indexedStoreReserved_iff.mpr h)
  -- the whole-register forms: a width above ELEN, then a register that is no multiple of 2, 4 or 8 (R290, R332)
  · intro h; and_intros <;> exact vloadWhole_illegal (.inr h)
  · intro h; and_intros <;> exact vloadWhole_illegal (.inr h)
  · intro h; and_intros <;> exact vloadWhole_illegal (.inr h)
  · exact fun h => ⟨vloadWhole_illegal (.inl h), vloadWhole_illegal (.inl h), vloadWhole_illegal (.inl h),
      vloadWhole_illegal (.inl h), vstoreWhole_illegal h⟩
  · exact fun h => ⟨vloadWhole_illegal (.inl h), vloadWhole_illegal (.inl h), vloadWhole_illegal (.inl h),
      vloadWhole_illegal (.inl h), vstoreWhole_illegal h⟩
  · exact fun h => ⟨vloadWhole_illegal (.inl h), vloadWhole_illegal (.inl h), vloadWhole_illegal (.inl h),
      vloadWhole_illegal (.inl h), vstoreWhole_illegal h⟩
  -- what the conditions say (R39, R47, R48)
  · exact fun b m w => groupOk_eq_false_iff
  · exact v0Ok_eq_false_iff
  · exact fun db sb dW dM sW sM => overlapOk_eq_false_iff

/-- Settles O51: the mask load is the load loop over `ceil(vl/8)` bytes. -/
theorem maskLoadResult : Obligations.MaskLoadResult :=
  fun _ _ _ hs hv hi hok => vloadMask_done hs.params hs.vl hv hi hok

/-- Settles O52: one run of the load loop for each width and each number of registers. -/
theorem wholeLoadResult : Obligations.WholeLoadResult := by
  intro s vd rs1 hc hv wholeOk whole
  have hdone : ∀ {n w : Nat} (insn : InsnWord), isEncodedWidth w → n = 1 ∨ n = 2 ∨ n = 4 ∨ n = 8 → wholeOk n w →
      ∃ t, vloadWhole s insn vd rs1 n w = .next t ∧ whole t n w :=
    fun _ hw hn ⟨ha, he, hok⟩ => vloadWhole_done hc hv hw hn ha he hok
  have h8 := fun {n : Nat} insn hn => hdone (n := n) insn isEncodedWidth_8 hn
  have h16 := fun {n : Nat} insn hn => hdone (n := n) insn isEncodedWidth_16 hn
  have h32 := fun {n : Nat} insn hn => hdone (n := n) insn isEncodedWidth_32 hn
  have h64 := fun {n : Nat} insn hn => hdone (n := n) insn isEncodedWidth_64 hn
  have hn1 : 1 = 1 ∨ 1 = 2 ∨ 1 = 4 ∨ 1 = 8 := by decide
  have hn2 : 2 = 1 ∨ 2 = 2 ∨ 2 = 4 ∨ 2 = 8 := by decide
  have hn4 : 4 = 1 ∨ 4 = 2 ∨ 4 = 4 ∨ 4 = 8 := by decide
  have hn8 : 8 = 1 ∨ 8 = 2 ∨ 8 = 4 ∨ 8 = 8 := by decide
  exact ⟨h8 _ hn1, h16 _ hn1, h32 _ hn1, h64 _ hn1, h8 _ hn2, h16 _ hn2, h32 _ hn2, h64 _ hn2,
    h8 _ hn4, h16 _ hn4, h32 _ hn4, h64 _ hn4, h8 _ hn8, h16 _ hn8, h32 _ hn8, h64 _ hn8⟩

/-- Settles O56: each is the store loop over bytes, with a length of its own. -/
theorem maskAndWholeStoreResult : Obligations.MaskAndWholeStoreResult := by
  intro s vs3 rs1 hv
  exact ⟨fun hi hok => vstoreMask_done hv hi hok, fun ha hok => vstoreWhole_done hv ha hok,
    fun ha hok => vstoreWhole_done hv ha hok, fun ha hok => vstoreWhole_done hv ha hok,
    fun ha hok => vstoreWhole_done hv ha hok⟩

end

section
/-! PROOFS. Memory: who writes it, its canonical form, the addresses of the elements, and what loads and stores do
when their accesses go ahead, raise, or fall outside main memory. -/

open Sys2Proof Sys2Proof.Machine Sys2Proof.Config

namespace Sys2Proof.Machine

/-! ### Who writes memory and the vector registers (R61, R76, R310) -/

section

variable {s t : State} {insn : InsnWord} {k : Kind}

theorem RegsRan.memory_eq {loads : Bool} (h : RegsRan loads s insn t) :
    t.mem = s.mem ∧ t.unsynced = s.unsynced := by cases h <;> simp

theorem FirstRan.memory_eq (h : FirstRan s insn t) : t.mem = s.mem ∧ t.unsynced = s.unsynced := by
  cases h with
  | regs h => exact h.memory_eq
  | trimmed => exact ⟨rfl, rfl⟩

theorem SetRan.memory_eq (h : SetRan s insn t) : t.mem = s.mem ∧ t.unsynced = s.unsynced := by cases h <;> simp

/-- Only the stores write memory. -/
theorem RanAs.memory_eq (hk : k.stores = false) (h : RanAs k s insn t) :
    t.mem = s.mem ∧ t.unsynced = s.unsynced := by
  cases k with
  | config => exact SetRan.memory_eq h
  | arith | load | maskLoad | wholeLoad => exact RegsRan.memory_eq h
  | first => exact FirstRan.memory_eq h
  | store | maskStore | wholeStore => cases hk

/-- A store that gives a next state has stored bytes inside the address space, or none. -/
theorem StoreRan.exists_storeBytes (h : StoreRan s insn t) :
    ∃ ws, (∀ p ∈ ws, p.1 < 2 ^ s.cfg.xbits) ∧ t.mem = (s.storeBytes ws).mem ∧
      t.unsynced = (s.storeBytes ws).unsynced := by
  cases h with
  | nothing => exact ⟨[], by simp, rfl, rfl⟩
  | stored ws hw => exact ⟨ws, hw, rfl, rfl⟩
  | trapped ws hw => exact ⟨ws, hw, by simp, by simp⟩
  | illegal => exact ⟨[], by simp, by simp, by simp⟩

/-- Whatever its kind, an instruction changes memory by storing bytes inside the address space, or not at all. -/
theorem RanAs.exists_storeBytes (h : RanAs k s insn t) :
    ∃ ws, (∀ p ∈ ws, p.1 < 2 ^ s.cfg.xbits) ∧ t.mem = (s.storeBytes ws).mem ∧
      t.unsynced = (s.storeBytes ws).unsynced := by
  cases hk : k.stores with
  | false => exact ⟨[], by simp, h.memory_eq hk⟩
  | true =>
    cases k with
    | store | maskStore | wholeStore => exact StoreRan.exists_storeBytes h
    | config | arith | load | first | maskLoad | wholeLoad => cases hk

theorem RanAs.memoryLegal (hs : s.memoryLegal) (h : RanAs k s insn t) : t.memoryLegal := by
  obtain ⟨ws, hw, hmem, hunsynced⟩ := h.exists_storeBytes
  exact (hs.storeBytes hw).of_eq hmem hunsynced h.cfg_eq

/-- No instruction takes an address out of the set the fetch may not see. -/
theorem RanAs.mem_unsynced {a : Nat} (h : RanAs k s insn t) (ha : a ∈ s.unsynced) : a ∈ t.unsynced := by
  obtain ⟨ws, -, -, hunsynced⟩ := h.exists_storeBytes
  rw [hunsynced, State.storeBytes_unsynced]
  exact mem_foldl_insertAddr.mpr (.inl ha)

theorem StoreRan.v_eq (h : StoreRan s insn t) : t.v = s.v := by cases h <;> simp

theorem SetRan.v_eq (h : SetRan s insn t) : t.v = s.v := by cases h <;> simp

theorem RanAs.sameVectors (hk : k.stores = true ∨ k = .config) (h : RanAs k s insn t) : SameVectors s t := by
  have hv : t.v = s.v := by
    cases k with
    | config => exact SetRan.v_eq h
    | store | maskStore | wholeStore => exact StoreRan.v_eq h
    | arith | load | first | maskLoad | wholeLoad => rcases hk with hk | hk <;> cases hk
  exact fun r => by rw [hv]

end

/-! ### The addresses of the elements (R78) -/

/-- A sum of addresses is taken modulo 2^XLEN, whatever the wrap at 64 bits. -/
theorem toNat_truncX_add (c : Params) (a : XWord) {b : XWord} {n : Nat} (hb : b.toNat = n % 2 ^ 64) :
    (truncX c (a + b)).toNat = (a.toNat + n) % 2 ^ c.xbits := by
  have hdvd : 2 ^ c.xbits ∣ 2 ^ 64 := Nat.pow_dvd_pow 2 (by unfold Params.xbits; cases c.xlen <;> decide)
  rw [truncX_toNat, BitVec.toNat_add, hb, Nat.add_mod_mod, Nat.mod_mod_of_dvd _ hdvd]

theorem toNat_unitAddr (s : State) (rs1 : RegNo) (bytes i : Nat) :
    (unitAddr s rs1 bytes i).toNat = ((s.readX rs1).toNat + i * bytes) % 2 ^ s.cfg.xbits :=
  toNat_truncX_add s.cfg _ (BitVec.toNat_ofNat ..)

theorem toNat_stridedAddr (s : State) (rs1 rs2 : RegNo) (i : Nat) :
    (stridedAddr s rs1 rs2 i).toNat = ((s.readX rs1).toNat + i * (s.readX rs2).toNat) % 2 ^ s.cfg.xbits :=
  toNat_truncX_add s.cfg _ (by rw [BitVec.toNat_mul, BitVec.toNat_ofNat, Nat.mod_mul_mod])

theorem toNat_indexedAddr (s : State) (rs1 vs2 : RegNo) (w i : Nat) :
    (indexedAddr s rs1 vs2 w i).toNat = ((s.readX rs1).toNat + (s.elem vs2 w i).toNat) % 2 ^ s.cfg.xbits :=
  toNat_truncX_add s.cfg _ (BitVec.toNat_setWidth ..)

/-! ### Memory operands that are not reserved (R251, R311) -/

section

variable {s : State} {insn : InsnWord} {vd vs2 : RegNo} {vm : Bool} {w : Nat}

theorem loadReserved_of (hg : groupOk s.cfg vd (s.emul8 w) w = true) (hm : vm = true ∨ vd ≠ 0#5) :
    loadReserved s w vd vm = false := by rw [loadReserved, hg, v0Ok_of hm]; rfl

theorem indexedLoadReserved_of (hg : groupOk s.cfg vd s.lmul8 s.sew = true)
    (h2 : groupOk s.cfg vs2 (s.emul8 w) w = true) (hm : vm = true ∨ vd ≠ 0#5)
    (ho : overlapOk vd s.sew s.lmul8 vs2 w (s.emul8 w) = true) : indexedLoadReserved s w vd vs2 vm = false := by
  rw [indexedLoadReserved, hg, h2, v0Ok_of hm, ho]; rfl

theorem storeReserved_of (hg : groupOk s.cfg vd (s.emul8 w) w = true) : storeReserved s w vd = false := by
  rw [storeReserved, hg]; rfl

theorem indexedStoreReserved_of (hg : groupOk s.cfg vd s.lmul8 s.sew = true)
    (h2 : groupOk s.cfg vs2 (s.emul8 w) w = true) : indexedStoreReserved s w vd vs2 = false := by
  rw [indexedStoreReserved, hg, h2]; rfl

theorem isEncodedWidth.exists_pow (hw : isEncodedWidth w) : ∃ k, w = 2 ^ k := by
  obtain ⟨k, -, -, hk⟩ := hw.eq_pow
  exact ⟨k, hk⟩

/-- An indexed load, whose elements are SEW wide, traps at the element that raises. -/
theorem vload_sew_traps {reserved : Bool} {addr : Nat → XWord} {i : Nat} {c : Cause} {tval : XWord} (hs : s.sized)
    (hr : s.memReady) (hg : groupOk s.cfg vd s.lmul8 s.sew = true) (hres : reserved = false)
    (hat : s.raisesAt .load s.sew s.vlN (s.maskOn vm) addr i c tval) :
    ∃ t, vload s insn reserved vd s.sew vm addr = .next t ∧
      LoadTrapped s t vd s.sew s.vlN (s.slots s.sew) (nregs s.lmul8) s.vma s.vta (s.maskOn vm) addr i c tval := by
  rw [← State.emul8_sew] at hg
  have htrap := vload_traps (insn := insn) hs hr State.sew_pow hg hres hat
  rwa [State.emul8_sew] at htrap

end

/-! ### The ordered store (R72) -/

section

variable {s t : State} {insn : InsnWord} {vs3 : RegNo} {W body : Nat} {on : Nat → Bool} {addr : Nat → XWord}

theorem Mem.writes_append (m : Mem) (ws us : List (Nat × Byte)) :
    Mem.writes m (ws ++ us) = Mem.writes (Mem.writes m ws) us := List.foldl_append

theorem landed_ordered (s : State) (ws : List (Nat × Byte)) : landed s true ws = ws := rfl

/-- The bytes that the active ones of the elements `is` store, in the order of `is`. -/
def activeBytes (s : State) (vs3 : RegNo) (W : Nat) (on : Nat → Bool) (addr : Nat → XWord) (is : List Nat) :
    List (Nat × Byte) :=
  is.flatMap (fun i => if on i then elemBytes s.cfg (addr i) (s.elem vs3 W i) else [])

theorem storeWrites_eq_activeBytes : storeWrites s vs3 W body on addr (fun _ => true) =
    activeBytes s vs3 W on addr (List.range' s.vstartN (body - s.vstartN)) := by
  simp only [storeWrites, activeBytes, Bool.and_true]

theorem mem_activeBytes {is : List Nat} {p : Nat × Byte} (h : p ∈ activeBytes s vs3 W on addr is) :
    ∃ j ∈ is, on j = true ∧ ∃ l < W / 8, p.1 = ((addr j).toNat + l) % 2 ^ s.cfg.xbits := by
  obtain ⟨j, hj, hp⟩ := List.mem_flatMap.mp h
  split at hp
  · next hon =>
    obtain ⟨l, hl, rfl⟩ := mem_elemBytes.mp hp
    exact ⟨j, hj, hon, l, hl, rfl⟩
  · cases hp

/-- The writes of a store, cut at its active element `i`: those below, the bytes of `i`, those above. -/
theorem storeWrites_split {i : Nat} (h1 : s.vstartN ≤ i) (h2 : i < body) (hon : on i = true) :
    storeWrites s vs3 W body on addr (fun _ => true) =
      activeBytes s vs3 W on addr (List.range' s.vstartN (i - s.vstartN)) ++
        (elemBytes s.cfg (addr i) (s.elem vs3 W i) ++
          activeBytes s vs3 W on addr (List.range' (i + 1) (body - (i + 1)))) := by
  have hlen : body - s.vstartN = (i - s.vstartN) + ((body - (i + 1)) + 1) := by omega
  rw [storeWrites_eq_activeBytes, hlen, ← List.range'_append_1, List.range'_succ, Nat.add_sub_cancel' h1, activeBytes,
    List.flatMap_append, List.flatMap_cons, if_pos hon]
  rfl

/-- After an ordered store that completes, a byte that no element above `i` writes is that of element `i`. -/
theorem storeLoop_ordered_read {i k : Nat} (hok : s.elementsOk .store W body on addr) (hW : W / 8 ≤ 2 ^ s.cfg.xbits)
    (h : storeLoop s vs3 W body on addr true = .next t) (h1 : s.vstartN ≤ i) (h2 : i < body) (hon : on i = true)
    (hk : k < W / 8)
    (habove : ∀ j, i < j → j < body → on j = true → ∀ l < W / 8,
      ((addr i).toNat + k) % 2 ^ s.cfg.xbits ≠ ((addr j).toNat + l) % 2 ^ s.cfg.xbits) :
    Mem.read t.mem (((addr i).toNat + k) % 2 ^ s.cfg.xbits) = byteOf (s.elem vs3 W i) k := by
  rw [storeLoop, if_pos (by omega), firstStop_elemCheck_none hok] at h
  cases h
  rw [State.complete_mem, State.storeBytes_mem, landed_ordered, storeWrites_split h1 h2 hon, Mem.writes_append,
    Mem.writes_append, Mem.read_writes_of_not_mem, Mem.read_writes_elemBytes s.cfg _ _ _ hW hk]
  intro p hp heq
  obtain ⟨j, hj, honj, l, hl, haddr⟩ := mem_activeBytes hp
  rw [List.mem_range'_1] at hj
  exact habove j (by omega) (by omega) honj l hl (heq ▸ haddr)

/-- The same behind the checks of R312. -/
theorem vstore_ordered_read {reserved vm : Bool} {i k : Nat} (hr : s.memReady) (hres : reserved = false)
    (hok : s.elementsOk .store W s.vlN (s.maskOn vm) addr) (hW : W / 8 ≤ 2 ^ s.cfg.xbits)
    (h : vstore s insn reserved vs3 W vm addr true = .next t) (h1 : s.vstartN ≤ i) (h2 : i < s.vlN)
    (hon : s.maskOn vm i = true) (hk : k < W / 8)
    (habove : ∀ j, i < j → j < s.vlN → s.maskOn vm j = true → ∀ l < W / 8,
      ((addr i).toNat + k) % 2 ^ s.cfg.xbits ≠ ((addr j).toNat + l) % 2 ^ s.cfg.xbits) :
    Mem.read t.mem (((addr i).toNat + k) % 2 ^ s.cfg.xbits) = byteOf (s.elem vs3 W i) k := by
  subst hres
  rw [vstore, if_pos (memLegal_of hr)] at h
  exact storeLoop_ordered_read hok hW h h1 h2 hon hk habove

/-- An element is no longer than the address space. -/
theorem width_le_of_groupOk {b : RegNo} {emul8 : Nat} (hc : s.cfg.wf) (hg : groupOk s.cfg b emul8 W = true) :
    W / 8 ≤ 2 ^ s.cfg.xbits := by
  obtain ⟨-, -, -, hle, -⟩ := groupOk_iff.mp hg
  have hvlen := hle.trans ((elen_le_vlen hc).trans (vlen_le hc))
  have hx : 2 ^ 32 ≤ 2 ^ s.cfg.xbits :=
    Nat.pow_le_pow_right (by decide) (by unfold Params.xbits; cases s.cfg.xlen <;> decide)
  omega

end

/-! ### What one access raises (R65, R69, R351) -/

section

variable {s : State} {k : AccessKind} {a tval : XWord} {n : Nat}

theorem checkAccess_misaligned (h : s.cfg.misaligned = .trap) (hal : a.toNat % n ≠ 0) :
    checkAccess s.cfg k a n = some (.raises (misalignedCause k) a) := if_pos ⟨hal, h⟩

theorem checkAccess_accessFault (h : s.cfg.misaligned = .perform ∨ a.toNat % n = 0) (hr : s.refusedAt k a n tval)
    (hadm : memAdmits s.cfg a.toNat n k = .accessFault) :
    checkAccess s.cfg k a n = some (.raises (accessFaultCause k) tval) :=
  checkAccess_eq_raises.mpr (.inr ⟨h, hr, .inl ⟨hadm, by cases k <;> rfl⟩⟩)

theorem checkAccess_pageFault (h : s.cfg.misaligned = .perform ∨ a.toNat % n = 0) (hr : s.refusedAt k a n tval)
    (hadm : memAdmits s.cfg a.toNat n k = .pageFault) :
    checkAccess s.cfg k a n = some (.raises (pageFaultCause k) tval) :=
  checkAccess_eq_raises.mpr (.inr ⟨h, hr, .inr ⟨hadm, by cases k <;> rfl⟩⟩)

end

end Sys2Proof.Machine

/-- Settles O11: a trap leaves memory alone, and an instruction stores bytes inside the address space or none. -/
theorem stepKeepsMemoryLegal : Obligations.StepKeepsMemoryLegal := by
  intro s t hs hm h
  obtain ⟨hc, ⟨c, rfl, -⟩ | ⟨w, rfl⟩ | ⟨i, hi, -⟩⟩ := step_next_cases h
  · exact hm.of_eq (by simp) (by simp) (by simp)
  · exact hm.of_eq (by simp) (by simp) (by simp)
  · exact (exec_ran hc (vlN_le_vlen_of_vtypeLegal hs) hi).memoryLegal hm

/-- Settles O18: what each form of next state leaves of memory and of the vector registers. -/
theorem whoWritesMemoryAndVectors : Obligations.WhoWritesMemoryAndVectors := by
  intro i s t hs h
  have hran := exec_ran hs.params (vlN_le_vlen_of_sized hs) h
  constructor
  · intro hk
    obtain ⟨hmem, hunsynced⟩ := hran.memory_eq hk
    exact sameMemory_of_eq hmem hunsynced
  · exact fun hk => hran.sameVectors hk

/-- Settles O30: FENCE.I empties the set, and no form of next state takes an address out of it. -/
theorem fenceLetsFetchSeeStores : Obligations.FenceLetsFetchSeeStores :=
  ⟨fun _ _ => ⟨rfl, rfl⟩, fun _ _ _ _ hs h ha => (exec_ran hs.params (vlN_le_vlen_of_sized hs) h).mem_unsynced ha⟩

/-- Settles O59: each address is a sum modulo 2^XLEN. -/
theorem addressArithmetic : Obligations.AddressArithmetic :=
  fun s rs1 rs2 vs2 bytes w i =>
    ⟨toNat_unitAddr s rs1 bytes i, toNat_stridedAddr s rs1 rs2 i, toNat_indexedAddr s rs1 vs2 w i⟩

/-- Settles O54: the operands are not reserved, so the store loop completes, at each width and in either mode. -/
theorem unitAndStridedStoreResult : Obligations.UnitAndStridedStoreResult := by
  intro s vs3 rs1 rs2 vm _ hr
  exact ⟨
    fun hg => ⟨vstore_completes hr (storeReserved_of hg), vstore_completes hr (storeReserved_of hg)⟩,
    fun hg => ⟨vstore_completes hr (storeReserved_of hg), vstore_completes hr (storeReserved_of hg)⟩,
    fun hg => ⟨vstore_completes hr (storeReserved_of hg), vstore_completes hr (storeReserved_of hg)⟩,
    fun hg => ⟨vstore_completes hr (storeReserved_of hg), vstore_completes hr (storeReserved_of hg)⟩⟩

/-- Settles O55: both forms complete, and the ordered one writes its bytes in element order. -/
theorem indexedStoreResult : Obligations.IndexedStoreResult := by
  intro s vs3 rs1 vs2 vm hs hr hg highestWins
  have both : ∀ {w : Nat} (unordered ordered : InsnWord), groupOk s.cfg vs2 (s.emul8 w) w = true →
      s.elementsOk .store s.sew s.vlN (s.maskOn vm) (indexedAddr s rs1 vs2 w) →
      let run := fun (insn : InsnWord) (inOrder : Bool) =>
        vstore s insn (indexedStoreReserved s w vs3 vs2) vs3 s.sew vm (indexedAddr s rs1 vs2 w) inOrder
      (∃ t, run unordered false = .next t ∧
        StoreDone s t vs3 s.sew s.vlN (s.maskOn vm) (indexedAddr s rs1 vs2 w)) ∧
      ∃ t, run ordered true = .next t ∧ StoreDone s t vs3 s.sew s.vlN (s.maskOn vm) (indexedAddr s rs1 vs2 w) ∧
        highestWins t (indexedAddr s rs1 vs2 w) := by
    intro w unordered ordered h2 hok run
    have hres := indexedStoreReserved_of hg h2
    obtain ⟨t, ht, hdone⟩ := vstore_completes (insn := ordered) (ordered := true) hr hres hok
    exact ⟨vstore_completes hr hres hok, t, ht, hdone,
      fun i k => vstore_ordered_read hr hres hok (width_le_of_groupOk hs.params hg) ht⟩
  exact ⟨both _ _, both _ _, both _ _, both _ _⟩

/-- Settles O57: the store loop stops at the element that raises, which an access of one byte never does as
misaligned. -/
theorem storeTrapsAtElement : Obligations.StoreTrapsAtElement := by
  intro s vs3 rs1 r2 vm i c tval
  refine ⟨fun _ hr => ⟨?_, ?_, ?_, ?_, ?_, ?_, ?_, ?_⟩, fun a n e v => ⟨checkAccess_eq_none, checkAccess_eq_raises,
    checkAccess_misaligned, fun hp hv => ⟨checkAccess_accessFault hp hv, checkAccess_pageFault hp hv⟩⟩,
    fun hv hvill hat => ⟨ne_misaligned_of_byte hat, vstoreMask_trapped hv hvill hat⟩, fun hv => ⟨?_, ?_, ?_, ?_⟩⟩
  -- widths 8, 16, 32 and 64: the unit-stride and strided stores, then the indexed ones
  · exact fun hg => ⟨vstore_traps hr (storeReserved_of hg), vstore_traps hr (storeReserved_of hg)⟩
  · exact fun hg h2 hat =>
      ⟨vstore_traps hr (indexedStoreReserved_of hg h2) hat, vstore_traps hr (indexedStoreReserved_of hg h2) hat⟩
  · exact fun hg => ⟨vstore_traps hr (storeReserved_of hg), vstore_traps hr (storeReserved_of hg)⟩
  · exact fun hg h2 hat =>
      ⟨vstore_traps hr (indexedStoreReserved_of hg h2) hat, vstore_traps hr (indexedStoreReserved_of hg h2) hat⟩
  · exact fun hg => ⟨vstore_traps hr (storeReserved_of hg), vstore_traps hr (storeReserved_of hg)⟩
  · exact fun hg h2 hat =>
      ⟨vstore_traps hr (indexedStoreReserved_of hg h2) hat, vstore_traps hr (indexedStoreReserved_of hg h2) hat⟩
  · exact fun hg => ⟨vstore_traps hr (storeReserved_of hg), vstore_traps hr (storeReserved_of hg)⟩
  · exact fun hg h2 hat =>
      ⟨vstore_traps hr (indexedStoreReserved_of hg h2) hat, vstore_traps hr (indexedStoreReserved_of hg h2) hat⟩
  -- 1, 2, 4 and 8 whole registers
  · exact fun ha hat => ⟨ne_misaligned_of_byte hat, vstoreWhole_trapped hv ha hat⟩
  · exact fun ha hat => ⟨ne_misaligned_of_byte hat, vstoreWhole_trapped hv ha hat⟩
  · exact fun ha hat => ⟨ne_misaligned_of_byte hat, vstoreWhole_trapped hv ha hat⟩
  · exact fun ha hat => ⟨ne_misaligned_of_byte hat, vstoreWhole_trapped hv ha hat⟩

/-- Settles O53: the load loop stops at the element that raises; under the policy `trap` a base not aligned to the
width makes the first element of a whole-register load such an element. -/
theorem loadTrapsAtElement : Obligations.LoadTrapsAtElement := by
  intro s vd rs1 r2 vm i c tval
  refine ⟨fun hs hr hm => ?_, fun a n e v => ⟨checkAccess_eq_none, checkAccess_eq_raises, checkAccess_misaligned,
    fun hp hv => ⟨checkAccess_accessFault hp hv, checkAccess_pageFault hp hv⟩⟩,
    fun hs hv hvill hat => ⟨ne_misaligned_of_byte hat, vloadMask_trapped hs.params hs.vl hv hvill hat⟩,
    fun hc hv => ?_⟩
  · have direct : ∀ {w : Nat} {addr : Nat → XWord} {insn : InsnWord}, isEncodedWidth w →
        groupOk s.cfg vd (s.emul8 w) w = true → s.raisesAt .load w s.vlN (s.maskOn vm) addr i c tval →
        ∃ t, vload s insn (loadReserved s w vd vm) vd w vm addr = .next t ∧
          LoadTrapped s t vd w s.vlN (s.slots w) (nregs (s.emul8 w)) s.vma s.vta (s.maskOn vm) addr i c tval :=
      fun hw hg hat => vload_traps hs hr hw.exists_pow hg (loadReserved_of hg hm) hat
    have indexed : ∀ {w : Nat} {insn : InsnWord}, groupOk s.cfg vd s.lmul8 s.sew = true →
        groupOk s.cfg r2 (s.emul8 w) w = true → overlapOk vd s.sew s.lmul8 r2 w (s.emul8 w) = true →
        s.raisesAt .load s.sew s.vlN (s.maskOn vm) (indexedAddr s rs1 r2 w) i c tval →
        ∃ t, vload s insn (indexedLoadReserved s w vd r2 vm) vd s.sew vm (indexedAddr s rs1 r2 w) = .next t ∧
          LoadTrapped s t vd s.sew s.vlN (s.slots s.sew) (nregs s.lmul8) s.vma s.vta (s.maskOn vm)
            (indexedAddr s rs1 r2 w) i c tval :=
      fun hg h2 ho hat => vload_sew_traps hs hr hg (indexedLoadReserved_of hg h2 hm ho) hat
    exact ⟨fun hg => ⟨direct isEncodedWidth_8 hg, direct isEncodedWidth_8 hg⟩,
      fun hg h2 ho hat => ⟨indexed hg h2 ho hat, indexed hg h2 ho hat⟩,
      fun hg => ⟨direct isEncodedWidth_16 hg, direct isEncodedWidth_16 hg⟩,
      fun hg h2 ho hat => ⟨indexed hg h2 ho hat, indexed hg h2 ho hat⟩,
      fun hg => ⟨direct isEncodedWidth_32 hg, direct isEncodedWidth_32 hg⟩,
      fun hg h2 ho hat => ⟨indexed hg h2 ho hat, indexed hg h2 ho hat⟩,
      fun hg => ⟨direct isEncodedWidth_64 hg, direct isEncodedWidth_64 hg⟩,
      fun hg h2 ho hat => ⟨indexed hg h2 ho hat, indexed hg h2 ho hat⟩⟩
  · intro trapsWith wholeTraps
    have whole : ∀ {n w : Nat} {insn : Instr}, isEncodedWidth w → n = 1 ∨ n = 2 ∨ n = 4 ∨ n = 8 →
        exec insn s = vloadWhole s (encode insn) vd rs1 n w → wholeTraps n w insn := by
      intro n w insn hw hn hexec ha he
      have htrap : ∀ {j : Nat} {e : Cause} {a : XWord},
          s.raisesAt .load w (n * s.cfg.vlen / w) (fun _ => true) (unitAddr s rs1 (w / 8)) j e a →
          trapsWith n w insn j e a := by
        intro j e a hat
        obtain ⟨t, ht, hdone⟩ := vloadWhole_trapped (insn := encode insn) hc hv hw hn ha he hat
        exact ⟨t, hexec.trans ht, hdone⟩
      exact ⟨htrap, fun hp hb hlt => htrap (raisesAt_misaligned_base hw hp hb hlt)⟩
    have hn1 : 1 = 1 ∨ 1 = 2 ∨ 1 = 4 ∨ 1 = 8 := by decide
    have hn2 : 2 = 1 ∨ 2 = 2 ∨ 2 = 4 ∨ 2 = 8 := by decide
    have hn4 : 4 = 1 ∨ 4 = 2 ∨ 4 = 4 ∨ 4 = 8 := by decide
    have hn8 : 8 = 1 ∨ 8 = 2 ∨ 8 = 4 ∨ 8 = 8 := by decide
    exact ⟨whole isEncodedWidth_8 hn1 rfl, whole isEncodedWidth_16 hn1 rfl,
      whole isEncodedWidth_32 hn1 rfl, whole isEncodedWidth_64 hn1 rfl,
      whole isEncodedWidth_8 hn2 rfl, whole isEncodedWidth_16 hn2 rfl,
      whole isEncodedWidth_32 hn2 rfl, whole isEncodedWidth_64 hn2 rfl,
      whole isEncodedWidth_8 hn4 rfl, whole isEncodedWidth_16 hn4 rfl,
      whole isEncodedWidth_32 hn4 rfl, whole isEncodedWidth_64 hn4 rfl,
      whole isEncodedWidth_8 hn8 rfl, whole isEncodedWidth_16 hn8 rfl,
      whole isEncodedWidth_32 hn8 rfl, whole isEncodedWidth_64 hn8 rfl⟩

/-- Settles O58: the access outside main memory is the first stop of the loop, unless a fault-only-first load draws a
limit below it. -/
theorem nonMainMemoryRefused : Obligations.NonMainMemoryRefused := by
  intro s r rs1 r2 vm i hs stops wholeStops ffStops
  refine ⟨fun hr hg => ?_, fun hr hg h2 => ?_, fun hr hg => ?_, fun hr hg h2 => ?_, fun hr hg => ?_,
    fun hr hg h2 => ?_, fun hr hg => ?_, fun hr hg h2 => ?_, fun hv hvill => ?_, fun hv ha => ?_, fun hv ha => ?_,
    fun hv ha => ?_, fun hv ha => ?_⟩
  -- width 8
  · exact ⟨fun hm => ⟨vload_refused hr (loadReserved_of hg hm), vload_refused hr (loadReserved_of hg hm),
      vleff_refused hs hr isEncodedWidth_8.exists_pow hg (loadReserved_of hg hm)⟩,
      vstore_refused hr (storeReserved_of hg), vstore_refused hr (storeReserved_of hg)⟩
  · exact ⟨fun hm ho => ⟨vload_refused hr (indexedLoadReserved_of hg h2 hm ho),
      vload_refused hr (indexedLoadReserved_of hg h2 hm ho)⟩,
      vstore_refused hr (indexedStoreReserved_of hg h2), vstore_refused hr (indexedStoreReserved_of hg h2)⟩
  -- width 16
  · exact ⟨fun hm => ⟨vload_refused hr (loadReserved_of hg hm), vload_refused hr (loadReserved_of hg hm),
      vleff_refused hs hr isEncodedWidth_16.exists_pow hg (loadReserved_of hg hm)⟩,
      vstore_refused hr (storeReserved_of hg), vstore_refused hr (storeReserved_of hg)⟩
  · exact ⟨fun hm ho => ⟨vload_refused hr (indexedLoadReserved_of hg h2 hm ho),
      vload_refused hr (indexedLoadReserved_of hg h2 hm ho)⟩,
      vstore_refused hr (indexedStoreReserved_of hg h2), vstore_refused hr (indexedStoreReserved_of hg h2)⟩
  -- width 32
  · exact ⟨fun hm => ⟨vload_refused hr (loadReserved_of hg hm), vload_refused hr (loadReserved_of hg hm),
      vleff_refused hs hr isEncodedWidth_32.exists_pow hg (loadReserved_of hg hm)⟩,
      vstore_refused hr (storeReserved_of hg), vstore_refused hr (storeReserved_of hg)⟩
  · exact ⟨fun hm ho => ⟨vload_refused hr (indexedLoadReserved_of hg h2 hm ho),
      vload_refused hr (indexedLoadReserved_of hg h2 hm ho)⟩,
      vstore_refused hr (indexedStoreReserved_of hg h2), vstore_refused hr (indexedStoreReserved_of hg h2)⟩
  -- width 64
  · exact ⟨fun hm => ⟨vload_refused hr (loadReserved_of hg hm), vload_refused hr (loadReserved_of hg hm),
      vleff_refused hs hr isEncodedWidth_64.exists_pow hg (loadReserved_of hg hm)⟩,
      vstore_refused hr (storeReserved_of hg), vstore_refused hr (storeReserved_of hg)⟩
  · exact ⟨fun hm ho => ⟨vload_refused hr (indexedLoadReserved_of hg h2 hm ho),
      vload_refused hr (indexedLoadReserved_of hg h2 hm ho)⟩,
      vstore_refused hr (indexedStoreReserved_of hg h2), vstore_refused hr (indexedStoreReserved_of hg h2)⟩
  -- the mask forms
  · exact ⟨vloadMask_refused hv hvill, vstoreMask_refused hv hvill⟩
  -- 1, 2, 4 and 8 whole registers
  · exact ⟨vloadWhole_refused hv ha, vloadWhole_refused hv ha, vloadWhole_refused hv ha, vloadWhole_refused hv ha,
      vstoreWhole_refused hv ha⟩
  · exact ⟨vloadWhole_refused hv ha, vloadWhole_refused hv ha, vloadWhole_refused hv ha, vloadWhole_refused hv ha,
      vstoreWhole_refused hv ha⟩
  · exact ⟨vloadWhole_refused hv ha, vloadWhole_refused hv ha, vloadWhole_refused hv ha, vloadWhole_refused hv ha,
      vstoreWhole_refused hv ha⟩
  · exact ⟨vloadWhole_refused hv ha, vloadWhole_refused hv ha, vloadWhole_refused hv ha, vloadWhole_refused hv ha,
      vstoreWhole_refused hv ha⟩

end

section
/-! PROOFS. The encoding: the decoder and the encoder are inverse on the words in scope, the encodings reserved by a
fixed field decode as reserved, and what a step does at a word that is no instruction. -/

open Sys2Proof Sys2Proof.Machine Sys2Proof.Config

namespace Sys2Proof

/-! ### Which decoder reads a word (R93, R102, R110) -/

section

variable {w : InsnWord}

theorem decodeWord_opV (ho : fOpcode w = 0b1010111#7) : decodeWord w = decodeOpV w := by
  simp only [decodeWord, ho]

theorem decodeWord_load (ho : fOpcode w = 0b0000111#7) : decodeWord w = decodeLoad w := by
  simp only [decodeWord, ho]

theorem decodeWord_store (ho : fOpcode w = 0b0100111#7) : decodeWord w = decodeStore w := by
  simp only [decodeWord, ho]

theorem decodeWord_config (ho : fOpcode w = 0b1010111#7) (h3 : fFunct3 w = 0b111#3) :
    decodeWord w = decodeConfig w := by
  simp only [decodeWord_opV ho, decodeOpV, h3]

/-- With `mew = 1` a load or store of a vector width is reserved (R115). -/
theorem decodeWord_of_mew (ho : fOpcode w = 0b0000111#7 ∨ fOpcode w = 0b0100111#7) (hw : vectorWidth w = true)
    (hm : fMew w = true) : decodeWord w = .reserved := by
  rcases ho with ho | ho
  · simp [decodeWord_load ho, decodeLoad, hw, hm]
  · simp [decodeWord_store ho, decodeStore, hw, hm]

theorem decodeWord_unitLoad (ho : fOpcode w = 0b0000111#7) (hw : vectorWidth w = true) (hm : fMew w = false)
    (hp : fMop w = 0b00#2) : decodeWord w = decodeUnitLoad w := by
  simp [decodeWord_load ho, decodeLoad, hw, hm, hp]

theorem decodeWord_unitStore (ho : fOpcode w = 0b0100111#7) (hw : vectorWidth w = true) (hm : fMew w = false)
    (hp : fMop w = 0b00#2) : decodeWord w = decodeUnitStore w := by
  simp [decodeWord_store ho, decodeStore, hw, hm, hp]

end

section

variable (f6 : BitVec 6) (vm : Bool) (vs2 vs1 vd : RegNo)

theorem decodeWord_encOpV_ivv :
    decodeWord (encOpV f6 vm vs2 vs1 0b000#3 vd) = decodeOpIVV (encOpV f6 vm vs2 vs1 0b000#3 vd) := by
  simp [decodeWord_opV, decodeOpV]

theorem decodeWord_encOpV_mvv :
    decodeWord (encOpV f6 vm vs2 vs1 0b010#3 vd) = decodeOpMVV (encOpV f6 vm vs2 vs1 0b010#3 vd) := by
  simp [decodeWord_opV, decodeOpV]

theorem decodeWord_encOpV_ivi :
    decodeWord (encOpV f6 vm vs2 vs1 0b011#3 vd) = decodeOpIVI (encOpV f6 vm vs2 vs1 0b011#3 vd) := by
  simp [decodeWord_opV, decodeOpV]

theorem decodeWord_encOpV_ivx :
    decodeWord (encOpV f6 vm vs2 vs1 0b100#3 vd) = decodeOpIVX (encOpV f6 vm vs2 vs1 0b100#3 vd) := by
  simp [decodeWord_opV, decodeOpV]

theorem decodeWord_encOpV_mvx :
    decodeWord (encOpV f6 vm vs2 vs1 0b110#3 vd) = decodeOpMVX (encOpV f6 vm vs2 vs1 0b110#3 vd) := by
  simp [decodeWord_opV, decodeOpV]

end

section

variable (nf : BitVec 3) (mop : BitVec 2) (vm : Bool) (b24 rs1 : RegNo) (width : BitVec 3) (vd : RegNo)

theorem decodeWord_encLoad :
    decodeWord (encLoad nf mop vm b24 rs1 width vd) = decodeLoad (encLoad nf mop vm b24 rs1 width vd) :=
  decodeWord_load (fOpcode_encMem ..)

theorem decodeWord_encStore :
    decodeWord (encStore nf mop vm b24 rs1 width vd) = decodeStore (encStore nf mop vm b24 rs1 width vd) :=
  decodeWord_store (fOpcode_encMem ..)

end

/-! ### Decoding an encoded configuration word (R96) -/

theorem decodeWord_encVsetvli (rd rs1 : RegNo) (zimm : BitVec 11) :
    decodeWord (encVsetvli rd rs1 zimm) = .instr (.vsetvli rd rs1 zimm) := by
  simp [decodeWord_config, decodeConfig]

theorem decodeWord_encVsetivli (rd uimm : RegNo) (zimm : BitVec 10) :
    decodeWord (encVsetivli rd uimm zimm) = .instr (.vsetivli rd uimm zimm) := by
  simp [decodeWord_config, decodeConfig]

theorem decodeWord_encVsetvl (rd rs1 rs2 : RegNo) :
    decodeWord (encVsetvl rd rs1 rs2) = .instr (.vsetvl rd rs1 rs2) := by
  simp [decodeWord_config, decodeConfig]

/-! ### What the decoder answers is the word it read (R92, R96, R100) -/

/-- An instruction that is the decoder's answer for `w` has `w` as its word. -/
def Decoded.EncodesTo (w : InsnWord) : Decoded → Prop
  | .instr i => encode i = w
  | .reserved | .notInScope | .notVector => True

section

variable {w : InsnWord}

/-- `fields_encOpV` with the fixed fields of an instruction in place of those of the word. -/
theorem encOpV_eq_of_fields {f6 : BitVec 6} {vm : Bool} {f3 : BitVec 3} (ho : fOpcode w = 0b1010111#7)
    (h3 : fFunct3 w = f3) (h6 : fFunct6 w = f6) (hvm : fVm w = vm) :
    encOpV f6 vm (fRs2 w) (fRs1 w) f3 (fRd w) = w := by
  subst h3 h6 hvm
  exact fields_encOpV ho

/-- `fields_encMem` with the fixed fields of an instruction in place of those of the word. -/
theorem encMem_eq_of_fields {op : BitVec 7} {nf : BitVec 3} {mop : BitVec 2} {vm : Bool} {b24 : RegNo}
    {width : BitVec 3} (ho : fOpcode w = op) (hm : fMew w = false) (hp : fMop w = mop) (hnf : fNf w = nf)
    (h24 : fRs2 w = b24) (hvm : fVm w = vm) (hw : fFunct3 w = width) :
    encMem op nf mop vm b24 (fRs1 w) width (fRd w) = w := by
  subst ho hp hnf h24 hvm hw
  exact fields_encMem hm

theorem encodesTo_decodeConfig (ho : fOpcode w = 0b1010111#7) (h3 : fFunct3 w = 0b111#3) :
    (decodeConfig w).EncodesTo w := by
  simp only [decodeConfig, BitVec.getLsbD_eq_getElem (show 31 < 32 by decide),
    BitVec.getLsbD_eq_getElem (show 30 < 32 by decide)]
  split_ifs with h31 h30 h25
  · exact fields_encVsetvli ho h3 h31
  · exact fields_encVsetivli ho h3 (by simpa using h31) h30
  · exact fields_encVsetvl ho h3 (by simpa using h31) (by simpa using h30) h25
  · trivial

theorem encodesTo_decodeOpIVV (ho : fOpcode w = 0b1010111#7) (h3 : fFunct3 w = 0b000#3) :
    (decodeOpIVV w).EncodesTo w := by
  unfold decodeOpIVV
  split
  case h_2 | h_6 | h_9 => trivial
  all_goals exact encOpV_eq_of_fields ho h3 ‹_› ‹_›

theorem encodesTo_decodeOpIVX (ho : fOpcode w = 0b1010111#7) (h3 : fFunct3 w = 0b100#3) :
    (decodeOpIVX w).EncodesTo w := by
  unfold decodeOpIVX
  split
  case h_2 | h_6 | h_9 => trivial
  all_goals exact encOpV_eq_of_fields ho h3 ‹_› ‹_›

theorem encodesTo_decodeOpIVI (ho : fOpcode w = 0b1010111#7) (h3 : fFunct3 w = 0b011#3) :
    (decodeOpIVI w).EncodesTo w := by
  unfold decodeOpIVI
  split
  case h_1 | h_3 | h_4 => exact encOpV_eq_of_fields ho h3 ‹_› ‹_›
  all_goals trivial

/-- The sub-opcode of the unary group is the `vs1` field, so it is fixed too (R107). -/
theorem encodesTo_decodeVxunary0 (ho : fOpcode w = 0b1010111#7) (h3 : fFunct3 w = 0b010#3)
    (h6 : fFunct6 w = 0b010010#6) : (decodeVxunary0 w).EncodesTo w := by
  have henc : ∀ {sub : RegNo}, fRs1 w = sub → encOpV 0b010010#6 (fVm w) (fRs2 w) sub 0b010#3 (fRd w) = w := by
    rintro sub rfl
    exact encOpV_eq_of_fields ho h3 h6 rfl
  unfold decodeVxunary0
  split
  case h_7 => trivial
  all_goals exact henc ‹_›

theorem encodesTo_decodeOpMVV (ho : fOpcode w = 0b1010111#7) (h3 : fFunct3 w = 0b010#3) :
    (decodeOpMVV w).EncodesTo w := by
  unfold decodeOpMVV
  split
  case h_1 h6 => exact encodesTo_decodeVxunary0 ho h3 h6
  case h_2 h6 =>
    split_ifs with hvm
    · exact encOpV_eq_of_fields ho h3 h6 hvm
    · trivial
  case h_11 => trivial
  all_goals exact encOpV_eq_of_fields ho h3 ‹_› rfl

theorem encodesTo_decodeOpMVX (ho : fOpcode w = 0b1010111#7) (h3 : fFunct3 w = 0b110#3) :
    (decodeOpMVX w).EncodesTo w := by
  unfold decodeOpMVX
  split
  case h_1 | h_10 => trivial
  all_goals exact encOpV_eq_of_fields ho h3 ‹_› rfl

theorem encodesTo_decodeOpV (ho : fOpcode w = 0b1010111#7) : (decodeOpV w).EncodesTo w := by
  unfold decodeOpV
  split
  next h3 => exact encodesTo_decodeOpIVV ho h3
  next h3 => exact encodesTo_decodeOpMVV ho h3
  next h3 => exact encodesTo_decodeOpIVI ho h3
  next h3 => exact encodesTo_decodeOpIVX ho h3
  next h3 => exact encodesTo_decodeOpMVX ho h3
  next h3 => exact encodesTo_decodeConfig ho h3
  next => trivial

/-- Four loads or four stores whose words differ in the `width` field alone, selected by that field (R101). -/
theorem encodesTo_byWidth {e8 e16 e32 e64 : Instr} {op : BitVec 7} {nf : BitVec 3} {mop : BitVec 2} {vm : Bool}
    {b24 : RegNo} (ho : fOpcode w = op) (hm : fMew w = false) (hp : fMop w = mop) (hnf : fNf w = nf)
    (h24 : fRs2 w = b24) (hvm : fVm w = vm)
    (h8 : encode e8 = encMem op nf mop vm b24 (fRs1 w) 0b000#3 (fRd w))
    (h16 : encode e16 = encMem op nf mop vm b24 (fRs1 w) 0b101#3 (fRd w))
    (h32 : encode e32 = encMem op nf mop vm b24 (fRs1 w) 0b110#3 (fRd w))
    (h64 : encode e64 = encMem op nf mop vm b24 (fRs1 w) 0b111#3 (fRd w)) :
    (byWidth w e8 e16 e32 e64).EncodesTo w := by
  have henc : ∀ {width : BitVec 3}, fFunct3 w = width → encMem op nf mop vm b24 (fRs1 w) width (fRd w) = w :=
    encMem_eq_of_fields ho hm hp hnf h24 hvm
  unfold byWidth
  split
  next hw => exact h8.trans (henc hw)
  next hw => exact h16.trans (henc hw)
  next hw => exact h32.trans (henc hw)
  next hw => exact h64.trans (henc hw)
  next => trivial

/-- The four widths of an access with `nf = 000`; another `nf` is a segment form, out of scope (R110). -/
theorem encodesTo_byWidth_of_nf {e8 e16 e32 e64 : Instr} {op : BitVec 7} {mop : BitVec 2} {b24 : RegNo}
    (ho : fOpcode w = op) (hm : fMew w = false) (hp : fMop w = mop) (h24 : fRs2 w = b24)
    (h8 : encode e8 = encMem op 0b000#3 mop (fVm w) b24 (fRs1 w) 0b000#3 (fRd w))
    (h16 : encode e16 = encMem op 0b000#3 mop (fVm w) b24 (fRs1 w) 0b101#3 (fRd w))
    (h32 : encode e32 = encMem op 0b000#3 mop (fVm w) b24 (fRs1 w) 0b110#3 (fRd w))
    (h64 : encode e64 = encMem op 0b000#3 mop (fVm w) b24 (fRs1 w) 0b111#3 (fRd w)) :
    (if fNf w = 0#3 then byWidth w e8 e16 e32 e64 else .notInScope).EncodesTo w := by
  split_ifs with hnf
  · exact encodesTo_byWidth ho hm hp hnf h24 rfl h8 h16 h32 h64
  · trivial

theorem encodesTo_decodeWholeLoad (ho : fOpcode w = 0b0000111#7) (hm : fMew w = false) (hp : fMop w = 0b00#2)
    (h24 : fRs2 w = 0b01000#5) : (decodeWholeLoad w).EncodesTo w := by
  unfold decodeWholeLoad
  split
  case h_5 => trivial
  all_goals exact encodesTo_byWidth ho hm hp ‹_› h24 ‹_› rfl rfl rfl rfl

theorem encodesTo_decodeUnitLoad (ho : fOpcode w = 0b0000111#7) (hm : fMew w = false) (hp : fMop w = 0b00#2) :
    (decodeUnitLoad w).EncodesTo w := by
  unfold decodeUnitLoad
  split
  next h24 => exact encodesTo_byWidth_of_nf ho hm hp h24 rfl rfl rfl rfl
  next h24 => exact encodesTo_decodeWholeLoad ho hm hp h24
  next h24 =>
    split_ifs with hmask
    · obtain ⟨hnf, hw, hvm⟩ := hmask
      exact encMem_eq_of_fields ho hm hp hnf h24 hvm hw
    · trivial
  next h24 => exact encodesTo_byWidth_of_nf ho hm hp h24 rfl rfl rfl rfl
  next => trivial

/-- The value of `mop` the decoder reads as the last case, the ordered indexed one (R102). -/
theorem mop_eq_ordered {mop : BitVec 2} : mop ≠ 0b00#2 → mop ≠ 0b01#2 → mop ≠ 0b10#2 → mop = 0b11#2 := by
  revert mop; decide

theorem encodesTo_decodeLoad (ho : fOpcode w = 0b0000111#7) : (decodeLoad w).EncodesTo w := by
  unfold decodeLoad
  split
  next => trivial
  next =>
    split
    next => trivial
    next hm =>
    have hm : fMew w = false := by simpa using hm
    split
    next hp => exact encodesTo_decodeUnitLoad ho hm hp
    next hp => exact encodesTo_byWidth_of_nf ho hm hp rfl rfl rfl rfl rfl
    next hp => exact encodesTo_byWidth_of_nf ho hm hp rfl rfl rfl rfl rfl
    next h0 h1 h2 => exact encodesTo_byWidth_of_nf ho hm (mop_eq_ordered h0 h1 h2) rfl rfl rfl rfl rfl

theorem encodesTo_decodeWholeStore (ho : fOpcode w = 0b0100111#7) (hm : fMew w = false) (hp : fMop w = 0b00#2)
    (h24 : fRs2 w = 0b01000#5) : (decodeWholeStore w).EncodesTo w := by
  unfold decodeWholeStore
  split
  case h_5 => trivial
  all_goals exact encMem_eq_of_fields ho hm hp ‹_› h24 ‹_› ‹_›

theorem encodesTo_decodeUnitStore (ho : fOpcode w = 0b0100111#7) (hm : fMew w = false) (hp : fMop w = 0b00#2) :
    (decodeUnitStore w).EncodesTo w := by
  unfold decodeUnitStore
  split
  next h24 => exact encodesTo_byWidth_of_nf ho hm hp h24 rfl rfl rfl rfl
  next h24 => exact encodesTo_decodeWholeStore ho hm hp h24
  next h24 =>
    split_ifs with hmask
    · obtain ⟨hnf, hw, hvm⟩ := hmask
      exact encMem_eq_of_fields ho hm hp hnf h24 hvm hw
    · trivial
  next => trivial

theorem encodesTo_decodeStore (ho : fOpcode w = 0b0100111#7) : (decodeStore w).EncodesTo w := by
  unfold decodeStore
  split
  next => trivial
  next =>
    split
    next => trivial
    next hm =>
    have hm : fMew w = false := by simpa using hm
    split
    next hp => exact encodesTo_decodeUnitStore ho hm hp
    next hp => exact encodesTo_byWidth_of_nf ho hm hp rfl rfl rfl rfl rfl
    next hp => exact encodesTo_byWidth_of_nf ho hm hp rfl rfl rfl rfl rfl
    next h0 h1 h2 => exact encodesTo_byWidth_of_nf ho hm (mop_eq_ordered h0 h1 h2) rfl rfl rfl rfl rfl

theorem encodesTo_decodeWord : (decodeWord w).EncodesTo w := by
  unfold decodeWord
  split
  next ho => exact encodesTo_decodeOpV ho
  next ho => exact encodesTo_decodeLoad ho
  next ho => exact encodesTo_decodeStore ho
  next => trivial

end

/-! ### Reserved encodings (R115) -/

section

variable {w : InsnWord}

theorem decodeConfig_reserved (h30 : w.extractLsb' 30 2 = 0b10#2) (h25 : w.extractLsb' 25 5 ≠ 0#5) :
    decodeConfig w = .reserved := by
  have bit : ∀ k < 2, w.getLsbD (30 + k) = (0b10#2).getLsbD k := by
    intro k hk
    rw [← h30, BitVec.getLsbD_extractLsb', decide_eq_true hk, Bool.true_and]
  have hb31 : w.getLsbD 31 = true := bit 1 (by decide)
  have hb30 : w.getLsbD 30 = false := bit 0 (by decide)
  simp only [decodeConfig, hb31, hb30, if_neg h25, Bool.false_eq_true, Bool.true_eq_false, if_false]

theorem decodeVxunary0_reserved (h : (fRs1 w).toNat < 2 ∨ 7 < (fRs1 w).toNat) : decodeVxunary0 w = .reserved := by
  unfold decodeVxunary0
  split
  case h_7 => rfl
  all_goals
    rename_i hsub
    exact absurd h (by rw [hsub]; decide)

theorem decodeWholeLoad_reserved
    (h : fVm w = false ∨ (fNf w ≠ 0b000#3 ∧ fNf w ≠ 0b001#3 ∧ fNf w ≠ 0b011#3 ∧ fNf w ≠ 0b111#3)) :
    decodeWholeLoad w = .reserved := by
  unfold decodeWholeLoad
  split
  case h_5 => rfl
  all_goals simp_all

theorem decodeWholeStore_reserved
    (h : fVm w = false ∨ fFunct3 w ≠ 0b000#3 ∨
      (fNf w ≠ 0b000#3 ∧ fNf w ≠ 0b001#3 ∧ fNf w ≠ 0b011#3 ∧ fNf w ≠ 0b111#3)) :
    decodeWholeStore w = .reserved := by
  unfold decodeWholeStore
  split
  case h_5 => rfl
  all_goals simp_all

/-- A word with a field the mask load and store fix at another value is not theirs (R103). -/
theorem not_maskFields (h : fVm w = false ∨ fNf w ≠ 0b000#3 ∨ fFunct3 w ≠ 0b000#3) :
    ¬ (fNf w = 0#3 ∧ fFunct3 w = 0#3 ∧ fVm w = true) := by
  rintro ⟨hnf, hw, hvm⟩
  simp [hnf, hw, hvm] at h

theorem decodeUnitLoad_reserved
    (h : (fRs2 w ≠ 0b00000#5 ∧ fRs2 w ≠ 0b01000#5 ∧ fRs2 w ≠ 0b01011#5 ∧ fRs2 w ≠ 0b10000#5) ∨
      (fRs2 w = 0b01000#5 ∧
        (fVm w = false ∨ (fNf w ≠ 0b000#3 ∧ fNf w ≠ 0b001#3 ∧ fNf w ≠ 0b011#3 ∧ fNf w ≠ 0b111#3))) ∨
      (fRs2 w = 0b01011#5 ∧ (fVm w = false ∨ fNf w ≠ 0b000#3 ∨ fFunct3 w ≠ 0b000#3))) :
    decodeUnitLoad w = .reserved := by
  rcases h with ⟨h0, h8, h11, h16⟩ | ⟨h24, h⟩ | ⟨h24, h⟩
  · unfold decodeUnitLoad
    split
    case h_5 => rfl
    all_goals contradiction
  · simp only [decodeUnitLoad, h24, decodeWholeLoad_reserved h]
  · simp only [decodeUnitLoad, h24, if_neg (not_maskFields h)]

theorem decodeUnitStore_reserved
    (h : (fRs2 w ≠ 0b00000#5 ∧ fRs2 w ≠ 0b01000#5 ∧ fRs2 w ≠ 0b01011#5) ∨
      (fRs2 w = 0b01000#5 ∧
        (fVm w = false ∨ fFunct3 w ≠ 0b000#3 ∨
          (fNf w ≠ 0b000#3 ∧ fNf w ≠ 0b001#3 ∧ fNf w ≠ 0b011#3 ∧ fNf w ≠ 0b111#3))) ∨
      (fRs2 w = 0b01011#5 ∧ (fVm w = false ∨ fNf w ≠ 0b000#3 ∨ fFunct3 w ≠ 0b000#3))) :
    decodeUnitStore w = .reserved := by
  rcases h with ⟨h0, h8, h11⟩ | ⟨h24, h⟩ | ⟨h24, h⟩
  · unfold decodeUnitStore
    split
    case h_4 => rfl
    all_goals contradiction
  · simp only [decodeUnitStore, h24, decodeWholeStore_reserved h]
  · simp only [decodeUnitStore, h24, if_neg (not_maskFields h)]

end

end Sys2Proof

/-- Settles O1: each instruction is decoded by the decoder of its format, from the fields its encoding wrote. -/
theorem decodeOfEncode : Obligations.DecodeOfEncode := by
  intro i
  cases i with
  | vsetvli rd rs1 zimm => exact decodeWord_encVsetvli rd rs1 zimm
  | vsetivli rd uimm zimm => exact decodeWord_encVsetivli rd uimm zimm
  | vsetvl rd rs1 rs2 => exact decodeWord_encVsetvl rd rs1 rs2
  -- OPIVV, OPIVX, OPIVI
  | vadcVvm | vmadcVvm | vmadcVv | vsbcVvm | vmsbcVvm | vmsbcVv =>
    simp [encode, decodeWord_encOpV_ivv, decodeOpIVV]
  | vadcVxm | vmadcVxm | vmadcVx | vsbcVxm | vmsbcVxm | vmsbcVx =>
    simp [encode, decodeWord_encOpV_ivx, decodeOpIVX]
  | vadcVim | vmadcVim | vmadcVi => simp [encode, decodeWord_encOpV_ivi, decodeOpIVI]
  -- OPMVV, OPMVX
  | vzextVf8 | vsextVf8 | vzextVf4 | vsextVf4 | vzextVf2 | vsextVf2 =>
    simp [encode, decodeWord_encOpV_mvv, decodeOpMVV, decodeVxunary0]
  | vmandMm | vwadduVv | vwaddVv | vwsubuVv | vwsubVv | vwadduWv | vwaddWv | vwsubuWv | vwsubWv =>
    simp [encode, decodeWord_encOpV_mvv, decodeOpMVV]
  | vwadduVx | vwaddVx | vwsubuVx | vwsubVx | vwadduWx | vwaddWx | vwsubuWx | vwsubWx =>
    simp [encode, decodeWord_encOpV_mvx, decodeOpMVX]
  -- loads: unit-stride and fault-only-first, mask, whole registers, strided, indexed
  | vle8V | vle16V | vle32V | vle64V | vle8ffV | vle16ffV | vle32ffV | vle64ffV | vlmV =>
    rw [encode, decodeWord_encLoad]; simp [encLoad, decodeLoad, decodeUnitLoad, vectorWidth, byWidth]
  | vl1re8V | vl1re16V | vl1re32V | vl1re64V | vl2re8V | vl2re16V | vl2re32V | vl2re64V | vl4re8V | vl4re16V | vl4re32V
  | vl4re64V | vl8re8V | vl8re16V | vl8re32V | vl8re64V =>
    rw [encode, decodeWord_encLoad]; simp [encLoad, decodeLoad, decodeUnitLoad, decodeWholeLoad, vectorWidth, byWidth]
  | vlse8V | vlse16V | vlse32V | vlse64V | vluxei8V | vluxei16V | vluxei32V | vluxei64V | vloxei8V | vloxei16V | vloxei32V
  | vloxei64V => rw [encode, decodeWord_encLoad]; simp [encLoad, decodeLoad, vectorWidth, byWidth]
  -- stores: unit-stride, mask, whole registers, strided, indexed
  | vse8V | vse16V | vse32V | vse64V | vsmV =>
    rw [encode, decodeWord_encStore]; simp [encStore, decodeStore, decodeUnitStore, vectorWidth, byWidth]
  | vs1rV | vs2rV | vs4rV | vs8rV =>
    rw [encode, decodeWord_encStore]; simp [encStore, decodeStore, decodeUnitStore, decodeWholeStore, vectorWidth]
  | vsse8V | vsse16V | vsse32V | vsse64V | vsuxei8V | vsuxei16V | vsuxei32V | vsuxei64V | vsoxei8V | vsoxei16V | vsoxei32V
  | vsoxei64V => rw [encode, decodeWord_encStore]; simp [encStore, decodeStore, vectorWidth, byWidth]

/-- Settles O2: every branch of the decoder names the instruction whose fixed fields it has tested, and a word is the
join of its fields. -/
theorem encodeOfDecode : Obligations.EncodeOfDecode := by
  intro w i h
  have henc : (decodeWord w).EncodesTo w := encodesTo_decodeWord
  rwa [h] at henc

/-- Settles O4: each clause is about one branch of one decoder. -/
theorem reservedEncodingsDecode : Obligations.ReservedEncodingsDecode := by
  refine ⟨?_, ?_, ?_, ?_, ?_, ?_, ?_, ?_, ?_⟩
  · rintro vs2 vs1 vd f3 f6 (rfl | rfl | rfl) h6
    · rcases h6 with rfl | rfl <;> simp [decodeWord_encOpV_ivv, decodeOpIVV]
    · rcases h6 with rfl | rfl <;> simp [decodeWord_encOpV_ivx, decodeOpIVX]
    · rcases h6 with rfl | rfl <;> simp [decodeWord_encOpV_ivi, decodeOpIVI]
  · rintro vs2 vs1 vd vm f6 (rfl | rfl) <;> simp [decodeWord_encOpV_ivi, decodeOpIVI]
  · intro vs2 vs1 vd
    simp [decodeWord_encOpV_mvv, decodeOpMVV]
  · intro vs2 sub vd vm hsub
    simp only [decodeWord_encOpV_mvv, decodeOpMVV, fFunct6_encOpV]
    exact decodeVxunary0_reserved (by rwa [fRs1_encOpV])
  · intro w ho h3 h30 h25
    rw [decodeWord_config ho h3, decodeConfig_reserved h30 h25]
  · exact fun w => decodeWord_of_mew
  · intro vs2 vs1 vd vm
    simp [decodeWord_encOpV_mvx, decodeOpMVX]
  · intro w ho hw hp h
    cases hm : fMew w with
    | true => exact decodeWord_of_mew (.inl ho) hw hm
    | false => rw [decodeWord_unitLoad ho hw hm hp, decodeUnitLoad_reserved h]
  · intro w ho hw hp h
    cases hm : fMew w with
    | true => exact decodeWord_of_mew (.inr ho) hw hm
    | false => rw [decodeWord_unitStore ho hw hm hp, decodeUnitStore_reserved h]

/-- Settles O6: the fetch gives the word, and the step answers as its decoding says. -/
theorem stepOnOtherWords : Obligations.StepOnOtherWords := by
  intro s hc hal hadm hidem hsync w
  have hstep : step s = runDecoded s w (decodeWord w) := step_eq_of_fetch hc (fetch_eq hal hadm hidem hsync)
  refine ⟨fun h => ⟨s.illegal w, ?_, illegalDone_illegal s w⟩, fun h => ?_, fun h => ?_⟩
  all_goals rw [hstep, h]; rfl

end

section
/-! PROOFS. The configuration instructions with a supported setting, the choice of `vl`, the supported settings, and
example words. -/

open Sys2Proof Sys2Proof.Machine Sys2Proof.Config

namespace Sys2Proof.Machine

/-! ### The AVL (R131) -/

/-- The AVL of `vsetvli` and `vsetvl`, by which of `rs1` and `rd` is `x0`. -/
theorem avlOf_reg_eq_some {s : State} {rd rs1 : RegNo} {n avl : Nat}
    (h : (rs1 ≠ 0#5 ∧ avl = (s.readX rs1).toNat) ∨ (rs1 = 0#5 ∧ rd ≠ 0#5 ∧ avl = 2 ^ s.cfg.xbits - 1) ∨
      (rs1 = 0#5 ∧ rd = 0#5 ∧ s.vill = false ∧ n = s.vlmax ∧ avl = s.vlN)) :
    avlOf s rd (.reg rs1) n = some avl := by
  rcases h with ⟨hrs1, rfl⟩ | ⟨rfl, hrd, rfl⟩ | ⟨rfl, rfl, hvill, rfl, rfl⟩
  · simp only [avlOf, if_pos hrs1]
  · simp only [avlOf, ne_eq, not_true_eq_false, if_false, if_pos hrd]
  · simp [avlOf, hvill]

/-! ### The choice of `vl` (R134) -/

section

variable {c : Params} {avl vlmax : Nat}

theorem chooseVl_of_le (h : avl ≤ vlmax) : chooseVl c avl vlmax = avl := if_pos h

theorem chooseVl_of_two_mul_le (hpos : 1 ≤ vlmax) (h : 2 * vlmax ≤ avl) : chooseVl c avl vlmax = vlmax := by
  rw [chooseVl, if_neg (by omega), if_neg (by omega)]

/-- Between VLMAX and 2*VLMAX either policy takes at least half of the AVL, rounded up. -/
theorem half_le_chooseVl (h1 : vlmax < avl) (h2 : avl < 2 * vlmax) : (avl + 1) / 2 ≤ chooseVl c avl vlmax := by
  rw [chooseVl, if_neg (by omega), if_pos h2]
  split
  · omega
  · exact Nat.le_add_right _ _

theorem chooseVl_eq_zero_iff (hpos : 1 ≤ vlmax) : chooseVl c avl vlmax = 0 ↔ avl = 0 := by
  rcases Nat.lt_or_ge vlmax avl with h1 | h1
  · rcases Nat.lt_or_ge avl (2 * vlmax) with h2 | h2
    · have := half_le_chooseVl (c := c) h1 h2
      omega
    · rw [chooseVl_of_two_mul_le hpos h2]
      omega
  · rw [chooseVl_of_le h1]

theorem chooseVl_le_avl : chooseVl c avl vlmax ≤ avl := by
  rcases Nat.le_total avl vlmax with h | h
  · exact (chooseVl_of_le h).le
  · exact (chooseVl_le c avl vlmax).trans h

/-- A `vl` given back as AVL is kept: it is at most VLMAX. -/
theorem chooseVl_chooseVl : chooseVl c (chooseVl c avl vlmax) vlmax = chooseVl c avl vlmax :=
  chooseVl_of_le (chooseVl_le c avl vlmax)

theorem chooseVl_minimum (hp : c.vlPolicy = .minimum) : chooseVl c avl vlmax = min avl vlmax := by
  simp only [chooseVl, hp]
  split_ifs <;> omega

end

/-! ### The required settings (R133) -/

/-- LMUL is at least 1 exactly when `vlmul` is not negative, but for the reserved setting (R34). -/
theorem eight_le_lmul8Of_iff {vlmul : BitVec 3} (h : vlmul ≠ 0b100#3) : 8 ≤ lmul8Of vlmul ↔ 0 ≤ vlmul.toInt := by
  revert h; revert vlmul; decide

/-- A fractional LMUL in eighths is 8 divided by 2 to minus `vlmul` (R34). -/
theorem lmul8Of_mul_two_pow {vlmul : BitVec 3} (h : vlmul ≠ 0b100#3) (hneg : vlmul.toInt < 0) :
    lmul8Of vlmul * 2 ^ (-vlmul.toInt).toNat = 8 := by
  revert hneg h; revert vlmul; decide

/-- A fractional LMUL times ELEN is ELEN shifted right. -/
theorem lmul8Of_mul_div_eight {vlmul : BitVec 3} (h : vlmul ≠ 0b100#3) (hneg : vlmul.toInt < 0) (e : Nat) :
    lmul8Of vlmul * e / 8 = e >>> (-vlmul.toInt).toNat := by
  have h8 := lmul8Of_mul_two_pow h hneg
  have hpos : 0 < lmul8Of vlmul := Nat.pos_of_ne_zero fun h0 => by simp [h0] at h8
  calc lmul8Of vlmul * e / 8
      = lmul8Of vlmul * e / (lmul8Of vlmul * 2 ^ (-vlmul.toInt).toNat) := by rw [h8]
    _ = e / 2 ^ (-vlmul.toInt).toNat := Nat.mul_div_mul_left _ _ hpos
    _ = e >>> (-vlmul.toInt).toNat := (Nat.shiftRight_eq_div_pow ..).symm

theorem requiredVtype_iff {c : Params} {vsew vlmul : BitVec 3} (h : vlmul ≠ 0b100#3) :
    requiredVtype c vsew vlmul = true ↔
      sewOf vsew ≤ c.elen ∧ (0 ≤ vlmul.toInt ∨ sewOf vsew ≤ c.elen >>> (-vlmul.toInt).toNat) := by
  simp only [requiredVtype, Bool.and_eq_true, Bool.or_eq_true, decide_eq_true_eq, eight_le_lmul8Of_iff h]
  rcases lt_or_ge vlmul.toInt 0 with hneg | hpos
  · rw [lmul8Of_mul_div_eight h hneg]
  · simp only [hpos, true_or]

end Sys2Proof.Machine

/-- An instruction's encoding, once evaluated, decodes to it. -/
theorem Sys2Proof.decodeWord_of_encode {i : Instr} {w : InsnWord} (h : encode i = w) : decodeWord w = .instr i :=
  h ▸ decodeOfEncode i

/-- Settles O31: the candidate is accepted, and each of the three forms has its AVL. -/
theorem vsetvliResult : Obligations.VsetvliResult :=
  fun _ _ _ _ _ hc hv hlt hsupp havl => vset_completes hc hv (vtypeOk_iff.mpr ⟨hlt, hsupp⟩) (avlOf_reg_eq_some havl)

/-- Settles O32: as for `vsetvli`, with the candidate from `x[rs2]`. -/
theorem vsetvlResult : Obligations.VsetvlResult :=
  fun _ _ _ _ _ hc hv hlt hsupp havl => vset_completes hc hv (vtypeOk_iff.mpr ⟨hlt, hsupp⟩) (avlOf_reg_eq_some havl)

/-- Settles O33: the immediate is the AVL, whatever `rd` is. -/
theorem vsetivliResult : Obligations.VsetivliResult :=
  fun _ _ _ _ hc hv hlt hsupp => vset_completes hc hv (vtypeOk_iff.mpr ⟨hlt, hsupp⟩) rfl

/-- Settles O35: by the three ranges of the AVL. -/
theorem chosenVlMeetsConstraints : Obligations.ChosenVlMeetsConstraints :=
  fun c avl vlmax hpos =>
    ⟨chooseVl_of_le, fun h1 h2 => ⟨half_le_chooseVl h1 h2, chooseVl_le c avl vlmax⟩, chooseVl_of_two_mul_le hpos,
      chooseVl_eq_zero_iff hpos, chooseVl_le c avl vlmax, chooseVl_le_avl, chooseVl_chooseVl, chooseVl_minimum⟩

/-- Settles O36: with no further settings only the required ones remain. -/
theorem defaultSupportedSettings : Obligations.DefaultSupportedSettings := by
  intro c vsew vlmul _ hextra
  rw [supportsVtype_iff, hextra, ← sewOf_eq_shiftLeft]
  constructor
  · rintro ⟨hvsew, h4, -, hreq | ⟨hmem, -⟩⟩
    · exact ⟨hvsew, h4, (requiredVtype_iff h4).mp hreq⟩
    · exact absurd hmem List.not_mem_nil
  · rintro ⟨hvsew, h4, hsew, hlmul⟩
    exact ⟨hvsew, h4, hsew, .inl ((requiredVtype_iff h4).mpr ⟨hsew, hlmul⟩)⟩

/-- Settles O3: each word is the encoding of its instruction, which decodes to it. -/
theorem exampleWordsDecode : Obligations.ExampleWordsDecode := by
  refine ⟨?_, ?_, ?_, ?_, ?_, ?_, ?_, ?_, ?_, ?_, ?_, ?_⟩
  all_goals exact decodeWord_of_encode (by decide)

end

section
/-! PROOFS. The arithmetic instructions of one element width: the policy on `vstart`, the extensions, the carry family
and the mask AND; and how scalar and immediate operands are brought to SEW bits. -/

open Sys2Proof Sys2Proof.Machine Sys2Proof.Config

namespace Sys2Proof.Machine

/-! ### The policy on `vstart` (R153, R158) -/

section

variable {s : State} {insn : InsnWord} {r : Result}

theorem State.arithLegal_of_trapNonzero (hp : s.cfg.arithVstart = .trapNonzero) (hv : s.vstartN ≠ 0)
    (reserved : Bool) : s.arithLegal reserved = false := by simp [State.arithLegal, hp, hv]

/-- An arithmetic instruction that fails the checks of R153 whatever its operands raises IllegalInstruction. -/
theorem Calls.arith_eq_illegal (h : Calls s insn .arith r) (hl : ∀ reserved, s.arithLegal reserved = false) :
    r = .next (s.illegal insn) := by
  cases h with
  | arithVec reserved | arithMask reserved => exact if_neg (by simp [hl reserved])

end

/-! ### Results of width SEW (R155) -/

section

variable {s : State} {vd vs2 vs1 : RegNo} {vm : Bool} {k : Nat}

/-- An arithmetic instruction with a SEW-wide destination whose operands are not reserved completes. -/
theorem sew_completes {insn : InsnWord} {reserved : Bool} {on : Nat → Bool} {result result' : Nat → BitVec s.sew}
    (hs : s.sized) (hr : s.arithReady) (hg : groupOk s.cfg vd s.lmul8 s.sew = true) (hres : reserved = false)
    (he : ∀ i, result i = result' i) :
    ∃ t, arithVec s insn reserved vd s.sew on result = .next t ∧ ArithDone s t vd s.sew on result' :=
  arithVec_completes hs hr State.sew_pow (by rw [State.emul8_sew]; exact hg) hres he

/-! ### Operands that are not reserved (R201, R217, R218) -/

theorem extReserved_of (hg : groupOk s.cfg vd s.lmul8 s.sew = true) (hm : vm = true ∨ vd ≠ 0#5)
    (h2 : groupOk s.cfg vs2 (s.lmul8 / k) (s.sew / k) = true)
    (ho : overlapOk vd s.sew s.lmul8 vs2 (s.sew / k) (s.lmul8 / k) = true) : extReserved s k vd vs2 vm = false := by
  rw [extReserved, hg, h2, v0Ok_of hm, ho]; rfl

theorem adcReserved_of (h0 : vd ≠ 0#5) (hg : groupOk s.cfg vd s.lmul8 s.sew = true)
    (h2 : groupOk s.cfg vs2 s.lmul8 s.sew = true) : adcReserved s vd vs2 = false := by
  rw [adcReserved, sewGroupOk, sewGroupOk, decide_eq_true h0, hg, h2]; rfl

theorem adcReservedVv_of (h0 : vd ≠ 0#5) (hg : groupOk s.cfg vd s.lmul8 s.sew = true)
    (h2 : groupOk s.cfg vs2 s.lmul8 s.sew = true) (h1 : groupOk s.cfg vs1 s.lmul8 s.sew = true) :
    adcReservedVv s vd vs2 vs1 = false := by rw [adcReservedVv, adcReserved_of h0 hg h2, sewGroupOk, h1]; rfl

theorem carrySourceOk_of {vs : RegNo} (hg : groupOk s.cfg vs s.lmul8 s.sew = true)
    (ho : overlapOk vd 1 8 vs s.sew s.lmul8 = true) : carrySourceOk s vd vs = true := by
  rw [carrySourceOk, sewGroupOk, hg, ho]; rfl

theorem madcReserved_of (h2 : carrySourceOk s vd vs2 = true) : madcReserved s vd vs2 = false := by
  rw [madcReserved, h2]; rfl

theorem madcReservedVv_of (h2 : carrySourceOk s vd vs2 = true) (h1 : carrySourceOk s vd vs1 = true) :
    madcReservedVv s vd vs2 vs1 = false := by rw [madcReservedVv, h2, h1]; rfl

end

/-! ### The carry family over the integers (R215, R216) -/

/-- In the forms with carry-in the carry is the mask bit of `v0`. -/
theorem carryBit_true (s : State) (i : Nat) : carryBit s true i = s.mask 0#5 i := Bool.true_and _

/-- In the forms without carry-in there is none. -/
theorem carryBit_false (s : State) (i : Nat) : carryBit s false i = false := Bool.false_and _

/-- At width `W` an integer difference is taken modulo 2^W. -/
theorem ofInt_sub_natCast (W : Nat) (x : Int) (n : Nat) :
    BitVec.ofInt W (x - n) = BitVec.ofInt W x - BitVec.ofNat W n := by
  rw [Int.sub_eq_add_neg, BitVec.ofInt_add, BitVec.ofInt_neg, BitVec.ofInt_natCast, ← BitVec.sub_eq_add_neg]

theorem subBorrow_eq_ofInt {W : Nat} (a b : BitVec W) (c : Bool) :
    subBorrow a b c = BitVec.ofInt W (a.toNat - b.toNat - c.toNat) := by
  rw [ofInt_sub_natCast, ofInt_sub_natCast, BitVec.ofInt_natCast, BitVec.ofNat_toNat, BitVec.ofNat_toNat,
    BitVec.setWidth_eq, BitVec.setWidth_eq, subBorrow]

section

variable {W : Nat} (s : State) (a b : BitVec W) (i : Nat)

theorem addCarry_carryIn : addCarry a b (carryBit s true i) =
    BitVec.ofNat W (a.toNat + b.toNat + (s.mask 0#5 i).toNat) := by rw [carryBit_true, addCarry]

theorem subBorrow_carryIn : subBorrow a b (carryBit s true i) =
    BitVec.ofInt W (a.toNat - b.toNat - (s.mask 0#5 i).toNat) := by rw [carryBit_true, subBorrow_eq_ofInt]

theorem carryOut_carryIn : carryOut a b (carryBit s true i) =
    decide (2 ^ W ≤ a.toNat + b.toNat + (s.mask 0#5 i).toNat) := by rw [carryBit_true, carryOut]

theorem carryOut_noCarryIn : carryOut a b (carryBit s false i) = decide (2 ^ W ≤ a.toNat + b.toNat + 0) := by
  rw [carryBit_false, carryOut, Bool.toNat_false]

theorem borrowOut_carryIn : borrowOut a b (carryBit s true i) =
    decide (a.toNat < b.toNat + (s.mask 0#5 i).toNat) := by rw [carryBit_true, borrowOut]

theorem borrowOut_noCarryIn : borrowOut a b (carryBit s false i) = decide (a.toNat < b.toNat + 0) := by
  rw [carryBit_false, borrowOut, Bool.toNat_false]

end

/-! ### Scalar and immediate operands (R151, R152) -/

/-- For either XLEN the scalar operand is the XLEN-bit register sign-extended, or cut, to SEW bits. -/
theorem scalarOp_eq (s : State) (r : RegNo) (sew : Nat) :
    scalarOp s r sew = ((s.readX r).setWidth s.cfg.xbits).signExtend sew := by
  unfold scalarOp Params.xbits
  cases s.cfg.xlen with
  | x32 => rfl
  | x64 => exact congrArg (BitVec.signExtend sew) (BitVec.setWidth_eq _).symm

section

variable {s : State} {r : RegNo} {sew : Nat}

theorem toNat_scalarOp_of_le (h : sew ≤ s.cfg.xbits) : (scalarOp s r sew).toNat = (s.readX r).toNat % 2 ^ sew := by
  rw [scalarOp_eq, BitVec.signExtend_eq_setWidth_of_le _ h, BitVec.toNat_setWidth, BitVec.toNat_setWidth,
    Nat.mod_mod_of_dvd _ (Nat.pow_dvd_pow 2 h)]

theorem toInt_scalarOp_of_ge (h : s.cfg.xbits ≤ sew) :
    (scalarOp s r sew).toInt = ((s.readX r).setWidth s.cfg.xbits).toInt := by
  rw [scalarOp_eq, BitVec.toInt_signExtend_of_le h]

theorem toNat_scalarOp_zero : (scalarOp s 0#5 sew).toNat = 0 := by
  simp [scalarOp_eq, BitVec.signExtend]

theorem toInt_immOp {imm : BitVec 5} (h : 5 ≤ sew) : (immOp imm sew).toInt = imm.toInt :=
  BitVec.toInt_signExtend_of_le h

end

end Sys2Proof.Machine

/-- Settles O23: under that policy the checks of R153 fail, whatever the operands are. -/
theorem arithVstartPolicy : Obligations.ArithVstartPolicy := by
  intro i s hp hv hk
  have hcall : Calls s (encode i) .arith (exec i s) := hk ▸ exec_calls i s
  exact ⟨_, hcall.arith_eq_illegal (State.arithLegal_of_trapNonzero hp hv), illegalDone_illegal s _⟩

/-- Settles O42: for each factor the operands are not reserved, so the arithmetic loop completes with the extension. -/
theorem extensionResult : Obligations.ExtensionResult := by
  intro s vd vs2 vm hs hr hg hm
  refine ⟨fun h2 ho => ?_, fun h2 ho => ?_, fun h2 ho => ?_⟩
  all_goals
    have hres := extReserved_of hg hm h2 ho
    exact ⟨sew_completes hs hr hg hres fun _ => rfl, sew_completes hs hr hg hres fun _ => rfl⟩

/-- Settles O43: the operands are not reserved, so the arithmetic loop completes with the sum or difference taken over
the integers, its carry the bit of `v0`. -/
theorem addSubtractWithCarryResult : Obligations.AddSubtractWithCarryResult := by
  intro s vd vs2 hs hr h0 hg h2
  have hres := adcReserved_of h0 hg h2
  refine ⟨fun vs1 h1 => ?_, fun rs1 => ⟨?_, ?_⟩, fun imm => ?_⟩
  · have hresVv := adcReservedVv_of h0 hg h2 h1
    exact ⟨sew_completes hs hr hg hresVv fun i => addCarry_carryIn s _ _ i,
      sew_completes hs hr hg hresVv fun i => subBorrow_carryIn s _ _ i⟩
  · exact sew_completes hs hr hg hres fun i => addCarry_carryIn s _ _ i
  · exact sew_completes hs hr hg hres fun i => subBorrow_carryIn s _ _ i
  · exact sew_completes hs hr hg hres fun i => addCarry_carryIn s _ _ i

/-- Settles O44: the sources are not reserved, so the mask loop completes with the carry or borrow out, for a vector, a
scalar and an immediate operand. -/
theorem carryOutResult : Obligations.CarryOutResult := by
  intro s vd vs2 hs hr h2 ho2
  have hsrc := carrySourceOk_of h2 ho2
  have hres := madcReserved_of hsrc
  refine ⟨fun vs1 h1 ho1 => ?_, fun rs1 => ⟨?_, ?_, ?_, ?_⟩, fun imm => ⟨?_, ?_⟩⟩
  · have hresVv := madcReservedVv_of hsrc (carrySourceOk_of h1 ho1)
    exact ⟨arithMask_completes hs hr hresVv fun i => carryOut_carryIn s _ _ i,
      arithMask_completes hs hr hresVv fun i => carryOut_noCarryIn s _ _ i,
      arithMask_completes hs hr hresVv fun i => borrowOut_carryIn s _ _ i,
      arithMask_completes hs hr hresVv fun i => borrowOut_noCarryIn s _ _ i⟩
  · exact arithMask_completes hs hr hres fun i => carryOut_carryIn s _ _ i
  · exact arithMask_completes hs hr hres fun i => carryOut_noCarryIn s _ _ i
  · exact arithMask_completes hs hr hres fun i => borrowOut_carryIn s _ _ i
  · exact arithMask_completes hs hr hres fun i => borrowOut_noCarryIn s _ _ i
  · exact arithMask_completes hs hr hres fun i => carryOut_carryIn s _ _ i
  · exact arithMask_completes hs hr hres fun i => carryOut_noCarryIn s _ _ i

/-- Settles O45: no operands are reserved, so the mask loop completes. -/
theorem maskAndResult : Obligations.MaskAndResult :=
  fun _ _ _ _ hs hr => arithMask_completes hs hr rfl fun _ => rfl

/-- Settles O46: the scalar operand is the XLEN-bit register sign-extended or cut, the immediate sign-extended. -/
theorem scalarAndImmediateOperands : Obligations.ScalarAndImmediateOperands :=
  fun _ _ _ _ => ⟨toNat_scalarOp_of_le, toInt_scalarOp_of_ge, toNat_scalarOp_zero, toInt_immOp⟩

end

section
/-! PROOFS. The loads governed by `vtype` when their checks pass: unit-stride, strided, indexed and fault-only-first. -/

open Sys2Proof Sys2Proof.Machine Sys2Proof.Config

namespace Sys2Proof.Machine

variable {s : State} {insn : InsnWord} {reserved : Bool} {vd : RegNo} {W : Nat} {vm : Bool} {addr : Nat → XWord}

/-- Fewer elements make fewer accesses. -/
theorem State.elementsOk.of_le {k : AccessKind} {body body' : Nat} {on : Nat → Bool}
    (h : s.elementsOk k W body on addr) (hle : body' ≤ body) : s.elementsOk k W body' on addr :=
  fun i hlo hup => h i hlo (hup.trans_le hle)

/-- An indexed load, whose elements are SEW wide, completes where no active element's access stops. -/
theorem vload_sew_completes (hs : s.sized) (hr : s.memReady) (hg : groupOk s.cfg vd s.lmul8 s.sew = true)
    (hres : reserved = false) (hok : s.elementsOk .load s.sew s.vlN (s.maskOn vm) addr) :
    ∃ t, vload s insn reserved vd s.sew vm addr = .next t ∧
      LoadDone s t vd s.sew s.vlN (s.slots s.sew) (nregs s.lmul8) s.vma s.vta (s.maskOn vm) addr := by
  rw [← State.emul8_sew] at hg
  have hdone := vload_completes (insn := insn) hs hr State.sew_pow hg hres hok
  rwa [State.emul8_sew] at hdone

/-- A fault-only-first load no active element of which stops leaves as `vl` the limit it drew, which `never` puts at
the old `vl` and `mayTrim` anywhere from 1, or `vstart`, up to it (R284 (a), (d)). -/
theorem vleff_processes (hs : s.sized) (hr : s.memReady) (hlt : s.vstartN < s.vlN) (hW : ∃ k, W = 2 ^ k)
    (hg : groupOk s.cfg vd (s.emul8 W) W = true) (hres : reserved = false)
    (hok : s.elementsOk .load W s.vlN (s.maskOn vm) addr) :
    ∃ n, (n ≤ s.vlN ∧ s.vstartN ≤ n ∧ 1 ≤ n ∧ (s.cfg.ffTrim = .never → n = s.vlN)) ∧
      ∃ t, vleff s insn reserved vd W vm addr = .next t ∧ FirstDone s t vd W n (s.maskOn vm) addr := by
  subst hres
  obtain ⟨hone, hlo, hup, hnever⟩ := ffStart_bounds hlt
  exact ⟨ffStart s, ⟨hup, hlo, hone, hnever⟩, vleff_done hs.params hs.vl hr hlt hW hg (hok.of_le hup)⟩

end Sys2Proof.Machine

/-- Settles O48: the operands are not reserved, so the load loop completes, at each width and in either mode. -/
theorem unitAndStridedLoadResult : Obligations.UnitAndStridedLoadResult := by
  intro s vd rs1 rs2 vm hs hr hm
  have direct : ∀ {w : Nat} {addr : Nat → XWord} {insn : InsnWord}, isEncodedWidth w →
      groupOk s.cfg vd (s.emul8 w) w = true → s.elementsOk .load w s.vlN (s.maskOn vm) addr →
      ∃ t, vload s insn (loadReserved s w vd vm) vd w vm addr = .next t ∧
        LoadDone s t vd w s.vlN (s.slots w) (nregs (s.emul8 w)) s.vma s.vta (s.maskOn vm) addr :=
    fun hw hg hok => vload_completes hs hr hw.exists_pow hg (loadReserved_of hg hm) hok
  exact ⟨fun hg => ⟨direct isEncodedWidth_8 hg, direct isEncodedWidth_8 hg⟩,
    fun hg => ⟨direct isEncodedWidth_16 hg, direct isEncodedWidth_16 hg⟩,
    fun hg => ⟨direct isEncodedWidth_32 hg, direct isEncodedWidth_32 hg⟩,
    fun hg => ⟨direct isEncodedWidth_64 hg, direct isEncodedWidth_64 hg⟩⟩

/-- Settles O49: the operands are not reserved, so the load loop completes, and on main memory the two orders have one
effect. -/
theorem indexedLoadResult : Obligations.IndexedLoadResult := by
  intro s vd rs1 vs2 vm hs hr hm hg
  have indexed : ∀ {w : Nat} {insn : InsnWord}, groupOk s.cfg vs2 (s.emul8 w) w = true →
      overlapOk vd s.sew s.lmul8 vs2 w (s.emul8 w) = true →
      s.elementsOk .load s.sew s.vlN (s.maskOn vm) (indexedAddr s rs1 vs2 w) →
      ∃ t, vload s insn (indexedLoadReserved s w vd vs2 vm) vd s.sew vm (indexedAddr s rs1 vs2 w) = .next t ∧
        LoadDone s t vd s.sew s.vlN (s.slots s.sew) (nregs s.lmul8) s.vma s.vta (s.maskOn vm)
          (indexedAddr s rs1 vs2 w) :=
    fun h2 ho hok => vload_sew_completes hs hr hg (indexedLoadReserved_of hg h2 hm ho) hok
  exact ⟨fun h2 ho hok => ⟨indexed h2 ho hok, indexed h2 ho hok⟩,
    fun h2 ho hok => ⟨indexed h2 ho hok, indexed h2 ho hok⟩,
    fun h2 ho hok => ⟨indexed h2 ho hok, indexed h2 ho hok⟩,
    fun h2 ho hok => ⟨indexed h2 ho hok, indexed h2 ho hok⟩⟩

/-- Settles O50: without a fault the limit drawn is the new `vl`; a fault past element 0 cuts it there, and a fault of
element 0 traps as in any other load. -/
theorem firstFaultLoadResult : Obligations.FirstFaultLoadResult := by
  intro s vd rs1 vm hs hr hlt hm ffRange cutRange
  have first : ∀ {w bytes : Nat} {insn : Instr}, isEncodedWidth w →
      exec insn s = vleff s (encode insn) (loadReserved s w vd vm) vd w vm (unitAddr s rs1 bytes) →
      groupOk s.cfg vd (s.emul8 w) w = true →
      (s.elementsOk .load w s.vlN (s.maskOn vm) (unitAddr s rs1 bytes) → ∃ n, ffRange n ∧
        ∃ t, exec insn s = .next t ∧ FirstDone s t vd w n (s.maskOn vm) (unitAddr s rs1 bytes)) ∧
      ∀ i c tval, s.raisesAt .load w s.vlN (s.maskOn vm) (unitAddr s rs1 bytes) i c tval →
        (0 < i → ∃ n, cutRange i n ∧ ∃ t, exec insn s = .next t ∧
          FirstDone s t vd w n (s.maskOn vm) (unitAddr s rs1 bytes)) ∧
        (i = 0 → ∃ t, exec insn s = .next t ∧
          LoadTrapped s t vd w s.vlN (s.slots w) (nregs (s.emul8 w)) s.vma s.vta (s.maskOn vm)
            (unitAddr s rs1 bytes) 0 c tval) := by
    intro w bytes insn hw hexec hg
    have hres := loadReserved_of hg hm
    have hpow := hw.exists_pow
    rw [hexec]
    refine ⟨vleff_processes hs hr hlt hpow hg hres, fun i c tval hat => ⟨fun hi => ?_, fun hi => ?_⟩⟩
    · obtain ⟨n, hone, hlo, hup, hnever, hdone⟩ := vleff_cut (insn := encode insn) hs hr hpow hg hres hat hi
      exact ⟨n, ⟨hone, hlo, hup, hnever⟩, hdone⟩
    · subst hi
      exact vleff_trapped hs hr hpow hg hres hat
  exact ⟨first isEncodedWidth_8 rfl, first isEncodedWidth_16 rfl, first isEncodedWidth_32 rfl,
    first isEncodedWidth_64 rfl⟩

end

section
/-! PROOFS. Trap entry and the return from a trap. -/

open Sys2Proof Sys2Proof.Machine Sys2Proof.Config

namespace Sys2Proof.Machine

variable {s : State} {c : Cause}

/-! ### Which traps are delegated (R356, R362) -/

theorem State.delegated_eq_true_iff :
    s.delegated c = true ↔ s.priv ≠ .machine ∧ s.medeleg.getLsbD c.code = true := by
  simp [State.delegated]

theorem State.delegated_eq_false_iff :
    s.delegated c = false ↔ s.priv = .machine ∨ s.medeleg.getLsbD c.code = false := by
  simp [State.delegated, or_iff_not_imp_left]

/-! ### What a return from a trap undoes (R361) -/

/-- An address of XLEN bits is not cut. -/
theorem truncX_eq_self {p : Params} {a : XWord} (h : a.toNat < 2 ^ p.xbits) : truncX p a = a :=
  BitVec.eq_of_toNat_eq (by rw [truncX_toNat, Nat.mod_eq_of_lt h])

/-- The mode SPP stands for, when the trap was taken from a mode below machine mode. -/
theorem Priv.ite_supervisor_eq_self {p : Priv} (h : p ≠ .machine) :
    (if p = .supervisor then Priv.supervisor else .user) = p := by
  cases p with
  | user | supervisor => rfl
  | machine => exact absurd rfl h

/-- MRET takes back what the entry into machine mode wrote, but for the record of the trap and the two fields of
`mstatus` it restored from (log 11). -/
theorem trapReturnM_takeTrap (hd : s.delegated c = false) (hpc : s.pc.toNat < 2 ^ s.cfg.xbits) (tval : XWord) :
    trapReturnM (s.takeTrap c tval) =
      { s with
        report := some ⟨c, tval, s.pc⟩
        draws := s.draws + 1
        mepc := s.pc
        mcause := BitVec.ofNat 64 c.code
        mtval := tval
        mstatus := { s.mstatus with mpie := true, mpp := .user } } := by
  rw [State.takeTrap_machine hd]
  simp [trapReturnM, State.enterM, truncX_eq_self hpc]

/-- SRET does so for the entry into supervisor mode: a delegated trap was not taken from machine mode, so SPP can name
the mode it was taken from. -/
theorem trapReturnS_takeTrap (hd : s.delegated c = true) (hpc : s.pc.toNat < 2 ^ s.cfg.xbits) (tval : XWord) :
    trapReturnS (s.takeTrap c tval) =
      { s with
        report := some ⟨c, tval, s.pc⟩
        draws := s.draws + 1
        sepc := s.pc
        scause := BitVec.ofNat 64 c.code
        stval := tval
        mstatus := { s.mstatus with spie := true, spp := false } } := by
  obtain ⟨hpriv, -⟩ := State.delegated_eq_true_iff.mp hd
  rw [State.takeTrap_supervisor hd]
  simp [trapReturnS, State.enterS, truncX_eq_self hpc, Priv.ite_supervisor_eq_self hpriv]

end Sys2Proof.Machine

/-- Settles O26: the entry and the return together leave the state before the trap, but for its record and the fields
of `mstatus` the return restored from. -/
theorem trapReturnRestores : Obligations.TrapReturnRestores := by
  intro s c tval hpc
  constructor
  · intro hd
    simp only [trapReturnM_takeTrap hd hpc, and_self]
  · intro hd
    simp only [trapReturnS_takeTrap hd hpc, and_self]

/-- Settles O25: the entry of the mode the exception goes to, and the frame of both entries. -/
theorem trapEntryRegisters : Obligations.TrapEntryRegisters := by
  intro s c tval
  refine ⟨fun h => ?_, fun hpriv hbit => ?_, State.takeTrap_report s c tval, State.takeTrap_x s c tval,
    State.takeTrap_v s c tval, State.takeTrap_vstart s c tval, State.takeTrap_vl s c tval,
    State.takeTrap_vtype s c tval, State.takeTrap_vxsat s c tval, State.takeTrap_vxrm s c tval,
    State.takeTrap_mem s c tval, rfl, rfl, rfl, rfl, rfl, rfl, rfl⟩
  · rw [State.takeTrap_machine (State.delegated_eq_false_iff.mpr h)]
    exact ⟨rfl, rfl, rfl, rfl, rfl, rfl, rfl, rfl, rfl⟩
  · rw [State.takeTrap_supervisor (State.delegated_eq_true_iff.mpr ⟨hpriv, hbit⟩)]
    exact ⟨rfl, rfl, rfl, rfl, rfl, rfl, rfl, rfl, rfl, rfl, rfl, rfl⟩

end
